-- ==== Sys2Proof/Word.lean ====
section
/-! DEFINITION. The byte, the block's unit of data (spec/00_scope.md R9), and byte lists (R10). -/

namespace Sys2Proof

/-- An unsigned 8-bit value 0x00 to 0xFF (R9). -/
abbrev Byte := BitVec 8

/-- The 6-bit address field of the access header byte, `ADDR_BITS` = 6 (R7, 20_memory.md R60). -/
abbrev RegAddr := BitVec 6

/-- `zeros(n)`: n bytes 0x00 (R10). -/
def zeros (n : Nat) : List Byte := List.replicate n 0x00

end Sys2Proof
end

