-- ==== Sys2Proof/Config.lean ====
section
/-! DEFINITION. The Profile record (spec/00_scope.md R7), the reference profile, the outcomes of the external
agents, and the free values: opaque constants of which no proof can see the value. -/

namespace Sys2Proof

/-- The outcomes of `Transport.init()` (00_scope.md R12). -/
inductive XInitOutcome where
  | ok
  | openFail
  | configFail
deriving DecidableEq, Repr, Inhabited

/-- The outcomes of one exchange: the received bytes, or the transfer failure (20_memory.md R62). -/
inductive XferOutcome where
  | ok (rx : List Byte)
  | fail
deriving DecidableEq, Repr

/-- `TIE_MODE` (R7, 43_color.md R271). -/
inductive TieMode where
  | draw
  | binary64
deriving DecidableEq, Repr

/-- The component a rounding tie stands in (43_color.md R271). -/
inductive TieComponent where
  | hue
  | saturation
deriving DecidableEq, Repr

/-- What `TIE_CHOICE` answers (43_color.md R271). -/
inductive TieSide where
  | floor
  | ceil
deriving DecidableEq, Repr, Inhabited

/-- Bit order of the link, one of the link parameters no rule depends on (20_memory.md R64). -/
inductive BitOrder where
  | msbFirst
  | lsbFirst
deriving DecidableEq, Repr

/-- Sampling edge of the link (20_memory.md R64). -/
inductive ClockEdge where
  | rising
  | falling
deriving DecidableEq, Repr

/-- The ten strobes: the source's eight in its order, then the two flush strobes (30_encoding.md R92). -/
inductive Strobe where
  | reset
  | fsTxOn
  | xtalOff
  | calibrate
  | rx
  | tx
  | idle
  | powerDown
  | flushRx
  | flushTx
deriving DecidableEq, Repr

/-- `STROBE_CODE(s)` for the eight fixed strobes (R7). -/
structure StrobeCodes where
  reset : Byte
  fsTxOn : Byte
  xtalOff : Byte
  calibrate : Byte
  rx : Byte
  tx : Byte
  idle : Byte
  powerDown : Byte
deriving DecidableEq, Repr

/-- The parameters of the block (R7). Register addresses have `ADDR_BITS` = 6 bits, so an address below 0x40 is a
matter of type; the other conditions of R8 are `Machine.profileWf`. The link parameters may be unspecified. -/
structure Profile where
  pataddr : RegAddr
  fifoAddr : RegAddr
  strobes : StrobeCodes
  flushRx : Option Byte
  flushTx : Option Byte
  idRegAddr : RegAddr
  configTable : List (RegAddr × Byte)
  scratchMax : Nat
  allocMayFail : Bool
  tieMode : TieMode
  xportClockHz : Option Nat
  xportBitOrder : Option BitOrder
  xportEdge : Option ClockEdge
deriving DecidableEq, Repr

/-- `ID_EXPECTED` (R7): the expected identity, the one numeric identity the source gives. -/
def idExpected : Byte := 0x80

/-- Free value (log 3): the answer of the d-th draw when it is an `XInit` and no tape entry is left. -/
opaque Config.freeXInit : Nat → XInitOutcome

/-- Free value (log 3): whether the d-th draw, an exchange with no tape entry left, succeeds. -/
opaque Config.freeXferOk : Nat → Bool

/-- Free value (log 3): received byte k of the d-th draw where the tape gives none. -/
opaque Config.freeByte : Nat → Nat → Byte

/-- Free value (log 3): whether the d-th draw, an allocation with no tape entry left, succeeds. -/
opaque Config.freeAllocOk : Nat → Bool

/-- `TIE_CHOICE(k, r', g', b')` (43_color.md R271): uninterpreted, of the component and the exact ratios only (log 15). -/
opaque Config.tieChoice : TieComponent → Rat → Rat → Rat → TieSide

/-- Free value (log 2): the address of entry k of the reference profile's symbolic `T[0..32]` (R7). -/
opaque Config.tableAddr : Nat → RegAddr

/-- Free value (log 2): the value of entry k of the reference profile's symbolic `T[0..32]` (R7). -/
opaque Config.tableValue : Nat → Byte

/-- The reference profile: the last column of R7's table, general knowledge and no claim of the source (93 G1, log 1).
Its configuration table is symbolic. -/
def Profile.reference : Profile where
  pataddr := 0x3E
  fifoAddr := 0x3F
  strobes := ⟨0x30, 0x31, 0x32, 0x33, 0x34, 0x35, 0x36, 0x39⟩
  flushRx := some 0x3A
  flushTx := some 0x3B
  idRegAddr := 0x30
  configTable := (List.range 33).map fun k => (Config.tableAddr k, Config.tableValue k)
  scratchMax := 64
  allocMayFail := true
  tieMode := .draw
  xportClockHz := none
  xportBitOrder := none
  xportEdge := none

end Sys2Proof
end

