-- ==== Sys2Proof/Syntax.lean ====
section
/-! DEFINITION. The instructions: one constructor per row of spec/opcode_table.json, the 27 host operations
(spec/30_encoding.md R103) and the 15 wire forms (R91, R92, R93). Operand bytes are kept as they travel (R104). -/

namespace Sys2Proof

/-- A colour: hue, saturation, intensity (10_state.md R25). -/
structure Color where
  h : Byte
  s : Byte
  i : Byte
deriving DecidableEq, Repr

/-- The nine bytes `ADDR[0..8]` (10_state.md R23). -/
structure Address where
  a0 : Byte
  a1 : Byte
  a2 : Byte
  a3 : Byte
  a4 : Byte
  a5 : Byte
  a6 : Byte
  a7 : Byte
  a8 : Byte
deriving DecidableEq, Repr

/-- The address bytes in index order (30_encoding.md R98). -/
def Address.bytes (a : Address) : List Byte := [a.a0, a.a1, a.a2, a.a3, a.a4, a.a5, a.a6, a.a7, a.a8]

/-- The colour bytes in the order h, s, i (30_encoding.md R98). -/
def Color.bytes (c : Color) : List Byte := [c.h, c.s, c.i]

/-- The instructions. The wire forms carry what the block puts on the link beyond the header: the value of a single
write, the payload of a burst write, the number of filler bytes of a burst read (R94, R97). -/
inductive Instr where
  | init
  | setReg (a v : Byte)
  | getReg (a : Byte)
  | strobe (sel : Byte)
  | fifoWrite (p : List Byte)
  | fifoRead
  | build (cmd cf : Byte) (c : Color)
  | send (cmd cf : Byte) (c : Color)
  | turnOn
  | turnOff
  | setColor (c : Color)
  | learn (maxAddresses : Byte) (duration : BitVec 32)
  | parse (b : List Byte)
  | recvPacket
  | rgbToHsi (r g b : Byte)
  | wrAddr (a : Address)
  | rdAddr
  | wrSeq (v : Byte)
  | rdSeq
  | wrColor (c : Color)
  | rdColor
  | wrCtrl (v : Byte)
  | rdCtrl
  | wrPollLimit (l : BitVec 32)
  | rdPollLimit
  | rdFault
  | rdBustate
  | wireSingleWrite (a : RegAddr) (v : Byte)
  | wireSingleRead (a : RegAddr)
  | wireBurstWrite (a : RegAddr) (p : List Byte)
  | wireBurstRead (a : RegAddr) (count : Nat)
  | wireStatusPoll
  | wireStrobeReset
  | wireStrobeFsTxOn
  | wireStrobeXtalOff
  | wireStrobeCalibrate
  | wireStrobeRx
  | wireStrobeTx
  | wireStrobeIdle
  | wireStrobePowerDown
  | wireStrobeFlushRx
  | wireStrobeFlushTx
deriving DecidableEq, Repr

end Sys2Proof
end

