-- ==== Sys2Proof/WellFormed.lean ====
section
/-! DEFINITION. Which instructions are well formed: the operand bytes spec/30_encoding.md R105 calls legal whatever the
profile, lists no longer than their length byte can say (R101), and burst reads no longer than the block forms (R97). -/

namespace Sys2Proof

/-- The command codes SET_COLOR, ON and OFF (30_encoding.md R99). -/
def cmdLegal (cmd : Byte) : Bool := cmd == 3 || cmd == 5 || cmd == 7

/-- The colour flag is 0 or 1 (30_encoding.md R105 (4)). -/
def cfLegal (cf : Byte) : Bool := cf == 0 || cf == 1

/-- A length byte can say it (30_encoding.md R101). -/
def lengthFits (p : List Byte) : Bool := decide (p.length ≤ 255)

/-- The well-formedness check. A term it refuses is either no encoding at all (a list too long) or is answered
ILLEGAL_COMMAND by the block (a bad selector, cmd or cf byte). -/
def Instr.wf : Instr → Bool
  | .strobe sel => decide (sel.toNat ≤ 9)
  | .fifoWrite p => lengthFits p
  | .build cmd cf _ => cmdLegal cmd && cfLegal cf
  | .send cmd cf _ => cmdLegal cmd && cfLegal cf
  | .parse b => lengthFits b
  | .wireBurstWrite _ p => lengthFits p
  | .wireBurstRead _ count => decide (count ≤ 15)
  | .init => true
  | .setReg _ _ => true
  | .getReg _ => true
  | .fifoRead => true
  | .turnOn => true
  | .turnOff => true
  | .setColor _ => true
  | .learn _ _ => true
  | .recvPacket => true
  | .rgbToHsi _ _ _ => true
  | .wrAddr _ => true
  | .rdAddr => true
  | .wrSeq _ => true
  | .rdSeq => true
  | .wrColor _ => true
  | .rdColor => true
  | .wrCtrl _ => true
  | .rdCtrl => true
  | .wrPollLimit _ => true
  | .rdPollLimit => true
  | .rdFault => true
  | .rdBustate => true
  | .wireSingleWrite _ _ => true
  | .wireSingleRead _ => true
  | .wireStatusPoll => true
  | .wireStrobeReset => true
  | .wireStrobeFsTxOn => true
  | .wireStrobeXtalOff => true
  | .wireStrobeCalibrate => true
  | .wireStrobeRx => true
  | .wireStrobeTx => true
  | .wireStrobeIdle => true
  | .wireStrobePowerDown => true
  | .wireStrobeFlushRx => true
  | .wireStrobeFlushTx => true

/-- Whether the instruction is a wire form (a transaction on the link) rather than a host operation. -/
def Instr.isWire : Instr → Bool
  | .wireSingleWrite _ _ => true
  | .wireSingleRead _ => true
  | .wireBurstWrite _ _ => true
  | .wireBurstRead _ _ => true
  | .wireStatusPoll => true
  | .wireStrobeReset => true
  | .wireStrobeFsTxOn => true
  | .wireStrobeXtalOff => true
  | .wireStrobeCalibrate => true
  | .wireStrobeRx => true
  | .wireStrobeTx => true
  | .wireStrobeIdle => true
  | .wireStrobePowerDown => true
  | .wireStrobeFlushRx => true
  | .wireStrobeFlushTx => true
  | .init => false
  | .setReg _ _ => false
  | .getReg _ => false
  | .strobe _ => false
  | .fifoWrite _ => false
  | .fifoRead => false
  | .build _ _ _ => false
  | .send _ _ _ => false
  | .turnOn => false
  | .turnOff => false
  | .setColor _ => false
  | .learn _ _ => false
  | .parse _ => false
  | .recvPacket => false
  | .rgbToHsi _ _ _ => false
  | .wrAddr _ => false
  | .rdAddr => false
  | .wrSeq _ => false
  | .rdSeq => false
  | .wrColor _ => false
  | .rdColor => false
  | .wrCtrl _ => false
  | .rdCtrl => false
  | .wrPollLimit _ => false
  | .rdPollLimit => false
  | .rdFault => false
  | .rdBustate => false

end Sys2Proof
end

