-- ==== Sys2Proof/Decode.lean ====
section
/-! DEFINITION. The decoders, total on any bytes, and the encoder: host commands (spec/30_encoding.md R101 to R105) and
wire transactions (R90 to R94). Both are written from the same tables: `HostOp.code` and the strobe codes. -/

namespace Sys2Proof

/-! ## The access header byte -/

/-- READ or WRITE (R90). -/
inductive Rw where
  | read
  | write
deriving DecidableEq, Repr

/-- SINGLE or BURST (R90). -/
inductive AccessMode where
  | single
  | burst
deriving DecidableEq, Repr

/-- `RW(rw)` (R90). -/
def rwBits : Rw → Byte
  | .read => 0x80
  | .write => 0x00

/-- `MODE(mode)` (R90). -/
def modeBits : AccessMode → Byte
  | .burst => 0x40
  | .single => 0x00

/-- `Opc(rw, mode, a) = RW(rw) ||| MODE(mode) ||| a` (R14, R90). -/
def opc (rw : Rw) (mode : AccessMode) (a : RegAddr) : Byte := rwBits rw ||| modeBits mode ||| a.setWidth 8

/-- Bit 7 of a header byte (R90). -/
def headerRw (h : Byte) : Rw := if h.getLsbD 7 then .read else .write

/-- Bit 6 of a header byte (R90). -/
def headerMode (h : Byte) : AccessMode := if h.getLsbD 6 then .burst else .single

/-- Bits 5:0 of a header byte (R90). -/
def headerAddr (h : Byte) : RegAddr := h.setWidth 6

/-- The status-poll byte (R93). -/
def pollByte : Byte := 0x00

/-! ## Strobes -/

/-- The selector numbers strobes by the source's order, then FLUSH_RX and FLUSH_TX; above 9 there is none (R92, R108). -/
def strobeOfSelector (sel : Byte) : Option Strobe :=
  match sel.toNat with
  | 0 => some .reset
  | 1 => some .fsTxOn
  | 2 => some .xtalOff
  | 3 => some .calibrate
  | 4 => some .rx
  | 5 => some .tx
  | 6 => some .idle
  | 7 => some .powerDown
  | 8 => some .flushRx
  | 9 => some .flushTx
  | _ => none

/-- The code of a strobe in a profile; a flush strobe may have none (00_scope.md R7, R92). -/
def strobeCode (p : Profile) : Strobe → Option Byte
  | .reset => some p.strobes.reset
  | .fsTxOn => some p.strobes.fsTxOn
  | .xtalOff => some p.strobes.xtalOff
  | .calibrate => some p.strobes.calibrate
  | .rx => some p.strobes.rx
  | .tx => some p.strobes.tx
  | .idle => some p.strobes.idle
  | .powerDown => some p.strobes.powerDown
  | .flushRx => p.flushRx
  | .flushTx => p.flushTx

/-- The strobes in selector order (R92). -/
def allStrobes : List Strobe :=
  [.reset, .fsTxOn, .xtalOff, .calibrate, .rx, .tx, .idle, .powerDown, .flushRx, .flushTx]

/-- The strobe whose code in the profile is this byte. -/
def strobeOfCode (p : Profile) (b : Byte) : Option Strobe :=
  allStrobes.find? fun st => decide (strobeCode p st = some b)

/-- The wire form of a strobe. -/
def wireStrobe : Strobe → Instr
  | .reset => .wireStrobeReset
  | .fsTxOn => .wireStrobeFsTxOn
  | .xtalOff => .wireStrobeXtalOff
  | .calibrate => .wireStrobeCalibrate
  | .rx => .wireStrobeRx
  | .tx => .wireStrobeTx
  | .idle => .wireStrobeIdle
  | .powerDown => .wireStrobePowerDown
  | .flushRx => .wireStrobeFlushRx
  | .flushTx => .wireStrobeFlushTx

/-! ## Wire transactions -/

/-- A wire transaction is told apart by its length and its header (R94): the status poll and the strobes first when
n = 1, then the four access forms. The block forms no other combination. -/
def decodeWire (p : Profile) : List Byte → Option Instr
  | [] => none
  | [h] =>
    if h = pollByte then some .wireStatusPoll
    else
      match strobeOfCode p h with
      | some st => some (wireStrobe st)
      | none =>
        match headerRw h, headerMode h with
        | .write, .burst => some (.wireBurstWrite (headerAddr h) [])
        | .read, .burst => some (.wireBurstRead (headerAddr h) 0)
        | _, .single => none
  | h :: b :: bs =>
    match headerRw h, headerMode h with
    | .write, .single => if bs = [] then some (.wireSingleWrite (headerAddr h) b) else none
    | .read, .single => if b = 0x00 ∧ bs = [] then some (.wireSingleRead (headerAddr h)) else none
    | .write, .burst => some (.wireBurstWrite (headerAddr h) (b :: bs))
    | .read, .burst =>
      if b :: bs = zeros (bs.length + 1) then some (.wireBurstRead (headerAddr h) (bs.length + 1)) else none

/-! ## Host commands -/

/-- The 27 host operations (R103). -/
inductive HostOp where
  | init
  | setReg
  | getReg
  | strobe
  | fifoWrite
  | fifoRead
  | build
  | send
  | turnOn
  | turnOff
  | setColor
  | learn
  | parse
  | recvPacket
  | rgbToHsi
  | wrAddr
  | rdAddr
  | wrSeq
  | rdSeq
  | wrColor
  | rdColor
  | wrCtrl
  | rdCtrl
  | wrPollLimit
  | rdPollLimit
  | rdFault
  | rdBustate
deriving DecidableEq, Repr

/-- The operation codes (R103). -/
def hostCode : HostOp → Byte
  | .init => 0x01
  | .setReg => 0x02
  | .getReg => 0x03
  | .strobe => 0x04
  | .fifoWrite => 0x05
  | .fifoRead => 0x06
  | .build => 0x10
  | .send => 0x11
  | .turnOn => 0x12
  | .turnOff => 0x13
  | .setColor => 0x14
  | .learn => 0x15
  | .parse => 0x16
  | .recvPacket => 0x17
  | .rgbToHsi => 0x20
  | .wrAddr => 0x30
  | .rdAddr => 0x31
  | .wrSeq => 0x32
  | .rdSeq => 0x33
  | .wrColor => 0x34
  | .rdColor => 0x35
  | .wrCtrl => 0x36
  | .rdCtrl => 0x37
  | .wrPollLimit => 0x38
  | .rdPollLimit => 0x39
  | .rdFault => 0x3A
  | .rdBustate => 0x3B

/-- The operations in the order of R103's table. -/
def allHostOps : List HostOp :=
  [.init, .setReg, .getReg, .strobe, .fifoWrite, .fifoRead] ++
  [.build, .send, .turnOn, .turnOff, .setColor, .learn, .parse, .recvPacket, .rgbToHsi] ++
  [.wrAddr, .rdAddr, .wrSeq, .rdSeq, .wrColor, .rdColor, .wrCtrl, .rdCtrl] ++
  [.wrPollLimit, .rdPollLimit, .rdFault, .rdBustate]

/-- The operation with this code; every other code is illegal (R103, R105 (1)). -/
def hostOpOfCode (b : Byte) : Option HostOp := allHostOps.find? fun op => decide (hostCode op = b)

/-- A 32-bit operand from its four bytes, least significant first (R101, 44_context.md R298). -/
def fromLe32 (b0 b1 b2 b3 : Byte) : BitVec 32 :=
  b0.setWidth 32 ||| (b1.setWidth 32 <<< 8) ||| (b2.setWidth 32 <<< 16) ||| (b3.setWidth 32 <<< 24)

/-- The four bytes of a 32-bit value, least significant first (R101, 44_context.md R299). -/
def toLe32 (l : BitVec 32) : List Byte :=
  [l.setWidth 8, (l >>> 8).setWidth 8, (l >>> 16).setWidth 8, (l >>> 24).setWidth 8]

/-- The operand bytes of an operation (R104), and the bytes after them; none when bytes are still missing (R101). -/
def decodeOperands : HostOp → List Byte → Option (Instr × List Byte)
  | .init, bs => some (.init, bs)
  | .setReg, a :: v :: bs => some (.setReg a v, bs)
  | .getReg, a :: bs => some (.getReg a, bs)
  | .strobe, sel :: bs => some (.strobe sel, bs)
  | .fifoWrite, n :: bs => if n.toNat ≤ bs.length then some (.fifoWrite (bs.take n.toNat), bs.drop n.toNat) else none
  | .fifoRead, bs => some (.fifoRead, bs)
  | .build, cmd :: cf :: h :: s :: i :: bs => some (.build cmd cf ⟨h, s, i⟩, bs)
  | .send, cmd :: cf :: h :: s :: i :: bs => some (.send cmd cf ⟨h, s, i⟩, bs)
  | .turnOn, bs => some (.turnOn, bs)
  | .turnOff, bs => some (.turnOff, bs)
  | .setColor, h :: s :: i :: bs => some (.setColor ⟨h, s, i⟩, bs)
  | .learn, max :: d0 :: d1 :: d2 :: d3 :: bs => some (.learn max (fromLe32 d0 d1 d2 d3), bs)
  | .parse, n :: bs => if n.toNat ≤ bs.length then some (.parse (bs.take n.toNat), bs.drop n.toNat) else none
  | .recvPacket, bs => some (.recvPacket, bs)
  | .rgbToHsi, r :: g :: b :: bs => some (.rgbToHsi r g b, bs)
  | .wrAddr, a0 :: a1 :: a2 :: a3 :: a4 :: a5 :: a6 :: a7 :: a8 :: bs =>
    some (.wrAddr ⟨a0, a1, a2, a3, a4, a5, a6, a7, a8⟩, bs)
  | .rdAddr, bs => some (.rdAddr, bs)
  | .wrSeq, v :: bs => some (.wrSeq v, bs)
  | .rdSeq, bs => some (.rdSeq, bs)
  | .wrColor, h :: s :: i :: bs => some (.wrColor ⟨h, s, i⟩, bs)
  | .rdColor, bs => some (.rdColor, bs)
  | .wrCtrl, v :: bs => some (.wrCtrl v, bs)
  | .rdCtrl, bs => some (.rdCtrl, bs)
  | .wrPollLimit, l0 :: l1 :: l2 :: l3 :: bs => some (.wrPollLimit (fromLe32 l0 l1 l2 l3), bs)
  | .rdPollLimit, bs => some (.rdPollLimit, bs)
  | .rdFault, bs => some (.rdFault, bs)
  | .rdBustate, bs => some (.rdBustate, bs)
  | _, _ => none

/-- What the block makes of the bytes it holds: a command and the bytes after it, an illegal operation code (R105 (1))
and the bytes after that one byte (log 9), or a command of which bytes are missing (R101). -/
inductive Decoded where
  | instr (i : Instr) (rest : List Byte)
  | unassignedCode (code : Byte) (rest : List Byte)
  | incomplete
deriving DecidableEq, Repr

/-- The host command decoder (R101, R103, R104). -/
def decode : List Byte → Decoded
  | [] => .incomplete
  | b :: bs =>
    match hostOpOfCode b with
    | none => .unassignedCode b bs
    | some op =>
      match decodeOperands op bs with
      | some (i, rest) => .instr i rest
      | none => .incomplete

/-! ## The encoder -/

/-- A list operand with its length byte (R101). -/
def counted (p : List Byte) : List Byte := BitVec.ofNat 8 p.length :: p

/-- The one byte of a strobe; no byte where the profile has no code. -/
def strobeBytes (p : Profile) (st : Strobe) : List Byte := (strobeCode p st).toList

/-- The bytes of an instruction: a host command as HOST sends it (R104), a wire form as the block sends it (R94, R97). -/
def encode (p : Profile) : Instr → List Byte
  | .init => [hostCode .init]
  | .setReg a v => [hostCode .setReg, a, v]
  | .getReg a => [hostCode .getReg, a]
  | .strobe sel => [hostCode .strobe, sel]
  | .fifoWrite bs => hostCode .fifoWrite :: counted bs
  | .fifoRead => [hostCode .fifoRead]
  | .build cmd cf c => hostCode .build :: cmd :: cf :: c.bytes
  | .send cmd cf c => hostCode .send :: cmd :: cf :: c.bytes
  | .turnOn => [hostCode .turnOn]
  | .turnOff => [hostCode .turnOff]
  | .setColor c => hostCode .setColor :: c.bytes
  | .learn max d => hostCode .learn :: max :: toLe32 d
  | .parse bs => hostCode .parse :: counted bs
  | .recvPacket => [hostCode .recvPacket]
  | .rgbToHsi r g b => [hostCode .rgbToHsi, r, g, b]
  | .wrAddr a => hostCode .wrAddr :: a.bytes
  | .rdAddr => [hostCode .rdAddr]
  | .wrSeq v => [hostCode .wrSeq, v]
  | .rdSeq => [hostCode .rdSeq]
  | .wrColor c => hostCode .wrColor :: c.bytes
  | .rdColor => [hostCode .rdColor]
  | .wrCtrl v => [hostCode .wrCtrl, v]
  | .rdCtrl => [hostCode .rdCtrl]
  | .wrPollLimit l => hostCode .wrPollLimit :: toLe32 l
  | .rdPollLimit => [hostCode .rdPollLimit]
  | .rdFault => [hostCode .rdFault]
  | .rdBustate => [hostCode .rdBustate]
  | .wireSingleWrite a v => [opc .write .single a, v]
  | .wireSingleRead a => [opc .read .single a, 0x00]
  | .wireBurstWrite a bs => opc .write .burst a :: bs
  | .wireBurstRead a count => opc .read .burst a :: zeros count
  | .wireStatusPoll => [pollByte]
  | .wireStrobeReset => strobeBytes p .reset
  | .wireStrobeFsTxOn => strobeBytes p .fsTxOn
  | .wireStrobeXtalOff => strobeBytes p .xtalOff
  | .wireStrobeCalibrate => strobeBytes p .calibrate
  | .wireStrobeRx => strobeBytes p .rx
  | .wireStrobeTx => strobeBytes p .tx
  | .wireStrobeIdle => strobeBytes p .idle
  | .wireStrobePowerDown => strobeBytes p .powerDown
  | .wireStrobeFlushRx => strobeBytes p .flushRx
  | .wireStrobeFlushTx => strobeBytes p .flushTx

/-! ## Opcode-table words -/

/-- The length of the longest host command: an operation code, a length byte and 255 bytes (R101). -/
def longestCommand : Nat := 257

/-- The bytes of a table word: bit 0 is the least significant bit of the first byte, a later byte's bits count on
from it, and every bit above nbits is 0, up to the longest command. -/
def bytesOfTableWord (nbits w : Nat) : List Byte :=
  (List.range longestCommand).map fun k => if 8 * k < nbits then BitVec.ofNat 8 (w >>> (8 * k)) else 0x00

/-- A wire transaction from a table word: as its one byte where that is a transaction, else with one zero byte. -/
def decodeWireTableWord (p : Profile) (nbits w : Nat) : Option Instr :=
  match decodeWire p ((bytesOfTableWord nbits w).take (max 1 ((nbits + 7) / 8))) with
  | some i => some i
  | none => decodeWire p ((bytesOfTableWord nbits w).take 2)

/-- The instruction read from a table word: by the host command decoder where the first byte is an assigned operation
code, else by the wire decoder with the reference profile's codes. Rows of the two units share byte values (log 20). -/
def decodeTableWord (nbits w : Nat) : Option Instr :=
  match decode (bytesOfTableWord nbits w) with
  | .instr i _ => some i
  | .unassignedCode _ _ => decodeWireTableWord Profile.reference nbits w
  | .incomplete => none

end Sys2Proof
end

