-- ==== Sys2Proof/Machine/State.lean ====
section
/-! DEFINITION. The machine's state as plain data (spec/10_state.md), its reset value, and the reasons a step can stop. -/

namespace Sys2Proof.Machine

/-- `BU_PHASE` (10_state.md R29). The reserved values 9 to 15 have no constructor: they are never produced. -/
inductive BuPhase where
  | uninit
  | xportInit
  | reset
  | readyPoll
  | idPoll
  | config
  | settle
  | ready
  | failed
deriving DecidableEq, Repr

/-- The result codes (60_exceptions.md R320). The reserved codes 0x0D to 0xFF have no constructor. -/
inductive ResultCode where
  | ok
  | transportOpenFail
  | transportConfigFail
  | transferFail
  | deviceMismatch
  | allocFail
  | notImplemented
  | timeout
  | addressOutOfRange
  | frameLength
  | framePreamble
  | illegalCommand
  | fault
deriving DecidableEq, Repr

/-- The bits of `FAULT` (10_state.md R28). -/
inductive FaultBit where
  | addrUnwritten
  | seqUnwritten
  | colorUnwritten
deriving DecidableEq, Repr

/-- A Transport event of `TRACE` (10_state.md R32). -/
inductive Event where
  | xinit (outcome : XInitOutcome)
  | xfer (tx : List Byte) (outcome : XferOutcome)
deriving DecidableEq, Repr

/-- What the external agents answer next (10_state.md R20; log 3): a tape for `XInit`, one for exchanges, one for
allocations, read from the front, and the number of draws made. An empty tape draws an opaque free value of Config. -/
structure Oracle where
  xinit : List XInitOutcome
  xfer : List XferOutcome
  alloc : List Bool
  draws : Nat
deriving DecidableEq, Repr

/-- The state. The registers are those of 10_state.md; `trace` and `responses` are what a model observes (R32,
60_exceptions.md R336); `hostIn`, `resetIn` and `oracle` are the inputs; `profile` is the model's argument (00_scope.md
R7), which no operation changes (10_state.md R36). -/
structure State where
  /-- The profile (00_scope.md R7). -/
  profile : Profile
  /-- `ADDR[0..8]` (R23). -/
  addr : Address
  /-- `ADDR_W` (R26). -/
  addrW : Bool
  /-- `SEQ` (R24). -/
  seq : Byte
  /-- `SEQ_W` (R26). -/
  seqW : Bool
  /-- `COLOR` (R25). -/
  color : Color
  /-- `COLOR_W` (R26). -/
  colorW : Bool
  /-- `FAULT` (R28). -/
  fault : Byte
  /-- `BU_PHASE` (R29). Between two steps of a running `INIT` it names the phase whose exchange comes next (log 11). -/
  buPhase : BuPhase
  /-- `CFG_IDX` (R29). -/
  cfgIdx : Nat
  /-- `SETTLE_IDX` (R29). -/
  settleIdx : Nat
  /-- `POLL_CNT` (R29). -/
  pollCnt : Nat
  /-- `CTRL` (R30). -/
  ctrl : Byte
  /-- `POLL_LIMIT` (R31). -/
  pollLimit : BitVec 32
  /-- `TRACE` (R32). -/
  trace : List Event
  /-- The responses so far (60_exceptions.md R336), the newest last. -/
  responses : List (List Byte)
  /-- The bytes HOST has supplied and the block has not consumed (30_encoding.md R101, log 7). -/
  hostIn : List Byte
  /-- Block reset is asserted (70_reset_and_hazards.md R350, log 12). -/
  resetIn : Bool
  /-- The model's own field: what the external agents answer next (log 3). -/
  oracle : Oracle
deriving DecidableEq, Repr

/-- The states that have no step (60_exceptions.md R337). No instruction raises one, and the block is not broken in them: it
makes its next step when HOST supplies bytes or asserts block reset. The block's own FAULT result (R323) is none of these:
it is an ordinary next state (log 29). -/
inductive Fault where
  /-- Raised by the step when HOST has issued no command that is not answered yet (log 8). Safe. -/
  | noCommand
  /-- Raised by the step when the bytes HOST has supplied are only a part of a command: the block is stuck (R336, R337), which
  HOST's duty excludes (R335). Safe. -/
  | stuck
deriving DecidableEq, Repr

/-- The reasons a step has no meaning. -/
inductive Refusal where
  /-- Raised by an arm of exec for an instruction that has no meaning yet. Safe. -/
  | notModelled (mnemonic : String)
  /-- Raised by step when the profile breaks a condition of 00_scope.md R8: the model refuses to instantiate (R337). Safe. -/
  | profileRefused
  /-- Raised by the two flush wire forms when the profile has no code for them: there is no such transaction (30_encoding.md
  R92, log 14). The step never raises it. Safe. -/
  | absentStrobeCode
deriving DecidableEq, Repr

/-- The state after block reset (10_state.md R37, 70_reset_and_hazards.md R350) with the reference profile (log 1). ADDR, SEQ
and COLOR are unwritten: their bytes are zero by choice and nothing reads them (log 5). CFG_IDX, SETTLE_IDX and POLL_CNT
are unspecified: zero by choice (log 6). The tapes are empty (log 3). -/
def State.reset : State where
  profile := Profile.reference
  addr := ⟨0, 0, 0, 0, 0, 0, 0, 0, 0⟩
  addrW := false
  seq := 0
  seqW := false
  color := ⟨0, 0, 0⟩
  colorW := false
  fault := 0x00
  buPhase := .uninit
  cfgIdx := 0
  settleIdx := 0
  pollCnt := 0
  ctrl := 0x00
  pollLimit := 0
  trace := []
  responses := []
  hostIn := []
  resetIn := false
  oracle := ⟨[], [], [], 0⟩

end Sys2Proof.Machine
end

