-- ==== Sys2Proof/Machine/Flags.lean ====
section
/-! DEFINITION. The encoded fields: result codes (spec/60_exceptions.md R320), the bits of FAULT and CTRL and the encoding of
BU_PHASE (10_state.md R28 to R30), and the fields of the chip's status byte (30_encoding.md R95, R96). The block has no
condition flags. -/

namespace Sys2Proof.Machine

/-- The numbers of the result codes (60_exceptions.md R320). -/
def resultByte : ResultCode → Byte
  | .ok => 0x00
  | .transportOpenFail => 0x01
  | .transportConfigFail => 0x02
  | .transferFail => 0x03
  | .deviceMismatch => 0x04
  | .allocFail => 0x05
  | .notImplemented => 0x06
  | .timeout => 0x07
  | .addressOutOfRange => 0x08
  | .frameLength => 0x09
  | .framePreamble => 0x0A
  | .illegalCommand => 0x0B
  | .fault => 0x0C

/-- The bits of FAULT (10_state.md R28). -/
def faultMask : FaultBit → Byte
  | .addrUnwritten => 0x01
  | .seqUnwritten => 0x02
  | .colorUnwritten => 0x04

/-- The 4-bit encoding of BU_PHASE (10_state.md R29). -/
def phaseCode : BuPhase → BitVec 4
  | .uninit => 0
  | .xportInit => 1
  | .reset => 2
  | .readyPoll => 3
  | .idPoll => 4
  | .config => 5
  | .settle => 6
  | .ready => 7
  | .failed => 8

/-- Whether an INIT is running: BU_PHASE is none of UNINIT, READY and FAILED (10_state.md R29). -/
def phaseBusy : BuPhase → Bool
  | .uninit => false
  | .xportInit => true
  | .reset => true
  | .readyPoll => true
  | .idPoll => true
  | .config => true
  | .settle => true
  | .ready => false
  | .failed => false

/-- What a write of CTRL keeps: bit 0; bits 7:1 are ignored (10_state.md R30, 44_context.md R296). -/
def ctrlKept (v : Byte) : Byte := v &&& 0x01

/-- `CTRL.STRICT_SEQ` (10_state.md R30). -/
def strictSeq (ctrl : Byte) : Bool := ctrl.getLsbD 0

/-- CHIP_RDYn, bit 7 of the status byte: set means not ready (30_encoding.md R95). -/
def statusNotReady (sb : Byte) : Bool := sb.getLsbD 7

/-- FIFO_COUNT, bits 3:0 of the status byte (30_encoding.md R95). -/
def statusFifoCount (sb : Byte) : Byte := sb &&& 0x0F

/-- The chip states in the source's order (30_encoding.md R96, 41_bringup.md R184). -/
inductive ChipState where
  | idle
  | rx
  | tx
  | fsTxOn
  | calibrate
  | settling
  | rxFifoOverflow
  | txFifoUnderflow
deriving DecidableEq, Repr

/-- The STATE field value of a chip state (30_encoding.md R96). -/
def chipStateCode : ChipState → BitVec 3
  | .idle => 0
  | .rx => 1
  | .tx => 2
  | .fsTxOn => 3
  | .calibrate => 4
  | .settling => 5
  | .rxFifoOverflow => 6
  | .txFifoUnderflow => 7

/-- `StateOf(sb)`: the chip state in bits 6:4 of a status byte (41_bringup.md R184). No block operation calls it. -/
def stateOf (sb : Byte) : ChipState :=
  match ((sb >>> 4) &&& 0x07).toNat with
  | 0 => .idle
  | 1 => .rx
  | 2 => .tx
  | 3 => .fsTxOn
  | 4 => .calibrate
  | 5 => .settling
  | 6 => .rxFifoOverflow
  | _ => .txFifoUnderflow

end Sys2Proof.Machine
end

