-- ==== Sys2Proof/Machine/Operands.lean ====
section
/-! DEFINITION. The operand checks and the frames the operations send: ADDR_CHECK, the legality of selector, cmd and cf
bytes, the exchange frames (spec/30_encoding.md R97), the lamp packet (R98), and the conditions on a profile (00_scope.md R8). -/

namespace Sys2Proof.Machine

/-- `ADDR_CHECK(a)` refuses this operand (40_register_access.md R132). -/
def addrRefused (a : Byte) : Bool := decide (0x40 ≤ a.toNat)

/-- The 6-bit address field of an operand that ADDR_CHECK lets through (30_encoding.md R90). -/
def addrField (a : Byte) : RegAddr := a.setWidth 6

/-- A cmd byte other than 3, 5 and 7 is illegal (30_encoding.md R99, R105 (3)). -/
def cmdRefused (cmd : Byte) : Bool := !(cmd == 0x03 || cmd == 0x05 || cmd == 0x07)

/-- A cf byte other than 0 and 1 is illegal (30_encoding.md R105 (4)). -/
def cfRefused (cf : Byte) : Bool := !(cf == 0x00 || cf == 0x01)

/-- The code a STROBE selector sends; none when the selector is illegal in this profile (30_encoding.md R105 (2), R108). -/
def selectorCode (p : Profile) (sel : Byte) : Option Byte :=
  match strobeOfSelector sel with
  | some st => strobeCode p st
  | none => none

/-! ## Frames (30_encoding.md R97) -/

/-- A single write of v to a (R94). -/
def frameSingleWrite (a : RegAddr) (v : Byte) : List Byte := [opc .write .single a, v]

/-- A single read of a, with its 0x00 filler (R94). -/
def frameSingleRead (a : RegAddr) : List Byte := [opc .read .single a, 0x00]

/-- A burst write of a payload to a (R94). -/
def frameBurstWrite (a : RegAddr) (p : List Byte) : List Byte := opc .write .burst a :: p

/-- A burst read of c bytes from a, with c filler bytes 0x00 (R94, 92 D31). -/
def frameBurstRead (a : RegAddr) (c : Nat) : List Byte := opc .read .burst a :: zeros c

/-- The status poll (R93). -/
def framePoll : List Byte := [pollByte]

/-- A strobe: its raw code (R92). -/
def frameStrobe (code : Byte) : List Byte := [code]

/-- The settle sequence IDLE, IDLE, POWER_DOWN, IDLE as codes (41_bringup.md R177). -/
def settleCodes (p : Profile) : List Byte := [p.strobes.idle, p.strobes.idle, p.strobes.powerDown, p.strobes.idle]

/-! ## The lamp packet -/

/-- The preamble (30_encoding.md R98). -/
def preamble : Byte := 0x0E

/-- The packet length (30_encoding.md R98). -/
def packetLength : Nat := 15

/-- `Pkt(addr, cmd, seq, col)` (42_packet_codec.md R210). -/
def pkt (addr : Address) (cmd seq : Byte) (col : Color) : List Byte :=
  [preamble] ++ addr.bytes ++ [cmd, seq] ++ col.bytes

/-! ## The profile -/

/-- CFG_RANGE 0x00 to 0x2E (00_scope.md R7). -/
def inCfgRange (a : RegAddr) : Bool := decide (a.toNat ≤ 0x2E)

/-- STATUS_RANGE 0x30 to 0x3D (00_scope.md R7). -/
def inStatusRange (a : RegAddr) : Bool := decide (0x30 ≤ a.toNat) && decide (a.toNat ≤ 0x3D)

/-- The codes the profile has: the eight strobes and the flush codes that are present. -/
def profileCodes (p : Profile) : List Byte := allStrobes.filterMap (strobeCode p)

/-- A strobe code has bits 7:6 = 00 and is not 0x00 (00_scope.md R8 (2), (3)). -/
def strobeCodeOk (b : Byte) : Bool := decide (b.toNat < 0x40) && decide (b ≠ 0x00)

/-- The values of a list are pairwise distinct. -/
def allDistinct : List Byte → Bool
  | [] => true
  | b :: bs => !bs.contains b && allDistinct bs

/-- The conditions of 00_scope.md R8, in its order (addresses below 0x40 are a matter of type). -/
def profileWf (p : Profile) : Bool :=
  decide (p.pataddr ≠ p.fifoAddr) &&
  !inCfgRange p.pataddr && !inStatusRange p.pataddr && !inCfgRange p.fifoAddr && !inStatusRange p.fifoAddr &&
  allDistinct (profileCodes p) && (profileCodes p).all strobeCodeOk &&
  inStatusRange p.idRegAddr &&
  decide (p.configTable.length = 33) &&
  decide (16 ≤ p.scratchMax)

end Sys2Proof.Machine
end

