-- ==== Sys2Proof/Machine/Ops.lean ====
section
/-! DEFINITION. The named operations over the state: one update per register, the primitives XInit, Xfer and Alloc with
their draws (spec/00_scope.md R12), raising an error or a fault (60_exceptions.md R321, R323), block reset
(70_reset_and_hazards.md R350), and what the block does while it waits for HOST. -/

namespace Sys2Proof.Machine

/-! ## Updates -/

/-- `ADDR <- a; ADDR_W <- true` (44_context.md R290). -/
def State.writeAddr (s : State) (a : Address) : State := { s with addr := a, addrW := true }

/-- `SEQ <- v; SEQ_W <- true` (44_context.md R292). -/
def State.writeSeq (s : State) (v : Byte) : State := { s with seq := v, seqW := true }

/-- `SEQ <- (SEQ + 1) mod 256` (10_state.md R24). -/
def State.advanceSeq (s : State) : State := { s with seq := s.seq + 1 }

/-- `COLOR <- (h, s, i); COLOR_W <- true` (44_context.md R294). -/
def State.writeColor (s : State) (c : Color) : State := { s with color := c, colorW := true }

/-- Sets a sticky bit of FAULT (10_state.md R28). -/
def State.setFaultBit (s : State) (b : FaultBit) : State := { s with fault := s.fault ||| faultMask b }

/-- `BU_PHASE <- p`. -/
def State.setPhase (s : State) (p : BuPhase) : State := { s with buPhase := p }

/-- `CFG_IDX <- k`. -/
def State.setCfgIdx (s : State) (k : Nat) : State := { s with cfgIdx := k }

/-- `SETTLE_IDX <- j`. -/
def State.setSettleIdx (s : State) (j : Nat) : State := { s with settleIdx := j }

/-- `POLL_CNT <- n`. -/
def State.setPollCnt (s : State) (n : Nat) : State := { s with pollCnt := n }

/-- `CTRL <- v &&& 0x01` (44_context.md R296). -/
def State.writeCtrl (s : State) (v : Byte) : State := { s with ctrl := ctrlKept v }

/-- `POLL_LIMIT <- l` (44_context.md R298). -/
def State.setPollLimit (s : State) (l : BitVec 32) : State := { s with pollLimit := l }

/-- Appends one event to TRACE (10_state.md R32). -/
def State.logEvent (s : State) (e : Event) : State := { s with trace := s.trace ++ [e] }

/-- Appends a response: the result code, then the data (30_encoding.md R102). -/
def State.respond (s : State) (code : ResultCode) (data : List Byte) : State :=
  { s with responses := s.responses ++ [resultByte code :: data] }

/-- The bytes of HOST that are left. -/
def State.setHostIn (s : State) (bs : List Byte) : State := { s with hostIn := bs }

/-- The oracle after a draw. -/
def State.setOracle (s : State) (o : Oracle) : State := { s with oracle := o }

/-! ## Draws -/

/-- n received bytes: those of the tape entry, and free bytes where it has fewer (20_memory.md R62, log 4). -/
def fitBytes (n d : Nat) (rx : List Byte) : List Byte :=
  (List.range n).map fun k => rx.getD k (Config.freeByte d k)

/-- The answer to an exchange of n bytes: n received bytes of any value, or fail (20_memory.md R62). -/
def fitOutcome (n d : Nat) : XferOutcome → XferOutcome
  | .ok rx => .ok (fitBytes n d rx)
  | .fail => .fail

/-- The free answer to the d-th draw, an exchange of n bytes (log 3). -/
def freeXfer (n d : Nat) : XferOutcome :=
  if Config.freeXferOk d then .ok (fitBytes n d []) else .fail

/-- The next answer of `Transport.init()`. -/
def drawXInit (o : Oracle) : XInitOutcome × Oracle :=
  match o.xinit with
  | a :: rest => (a, { o with xinit := rest, draws := o.draws + 1 })
  | [] => (Config.freeXInit o.draws, { o with draws := o.draws + 1 })

/-- The next answer to an exchange of n bytes. -/
def drawXfer (n : Nat) (o : Oracle) : XferOutcome × Oracle :=
  match o.xfer with
  | a :: rest => (fitOutcome n o.draws a, { o with xfer := rest, draws := o.draws + 1 })
  | [] => (freeXfer n o.draws, { o with draws := o.draws + 1 })

/-- The next allocation draw. -/
def drawAlloc (o : Oracle) : Bool × Oracle :=
  match o.alloc with
  | a :: rest => (a, { o with alloc := rest, draws := o.draws + 1 })
  | [] => (Config.freeAllocOk o.draws, { o with draws := o.draws + 1 })

/-! ## Primitives -/

/-- `XInit()`: the outcome, and the state with one `xinit` event appended (00_scope.md R12, 10_state.md R32). -/
def xinit (s : State) : XInitOutcome × State :=
  ((drawXInit s.oracle).1, (s.setOracle (drawXInit s.oracle).2).logEvent (.xinit (drawXInit s.oracle).1))

/-- `Xfer(tx)`: the outcome, and the state with one `xfer` event appended (00_scope.md R12, 20_memory.md R62). -/
def xfer (tx : List Byte) (s : State) : XferOutcome × State :=
  ((drawXfer tx.length s.oracle).1,
    (s.setOracle (drawXfer tx.length s.oracle).2).logEvent (.xfer tx (drawXfer tx.length s.oracle).1))

/-- `Alloc(n)`: whether the scratch buffer is had (40_register_access.md R133). -/
def alloc (n : Nat) (s : State) : Bool × State :=
  if s.profile.scratchMax < n then (false, s)
  else if s.profile.allocMayFail then ((drawAlloc s.oracle).1, s.setOracle (drawAlloc s.oracle).2)
  else (true, s)

/-- `rx[k]`; an exchange of n bytes answers n bytes (20_memory.md R62), so k < n is always in the list. -/
def rxByte (rx : List Byte) (k : Nat) : Byte := rx.getD k 0x00

/-- `Poll()`: the status byte, none on a transfer failure (40_register_access.md R131). -/
def poll (s : State) : Option Byte × State :=
  match xfer framePoll s with
  | (.ok rx, s') => (some (rxByte rx 0), s')
  | (.fail, s') => (none, s')

/-- `StatusRead(a)`: the status byte and the register value, none on a transfer failure (40_register_access.md R139). -/
def statusRead (a : RegAddr) (s : State) : Option (Byte × Byte) × State :=
  match xfer (frameBurstRead a 1) s with
  | (.ok rx, s') => (some (rxByte rx 0, rxByte rx 1), s')
  | (.fail, s') => (none, s')

/-! ## How an operation ends -/

/-- A result code and its data (30_encoding.md R102). -/
abbrev Reply := ResultCode × List Byte

/-- The operation's reply becomes its response. -/
def answer (r : Reply × State) : State := r.2.respond r.1.1 r.1.2

/-- `return (OK, data)` (00_scope.md R12). -/
def returnOk (data : List Byte) (s : State) : Reply × State := ((.ok, data), s)

/-- `raise Error(code, data)`: the operation ends at once, and what was written stays written (00_scope.md R12, R13,
60_exceptions.md R321). -/
def raiseError (code : ResultCode) (data : List Byte) (s : State) : Reply × State := ((code, data), s)

/-- `fault F`: sets the sticky bit and ends the operation with result FAULT (00_scope.md R12, 10_state.md R28,
60_exceptions.md R323). Nothing else is saved and control goes nowhere (60_exceptions.md R326). -/
def raiseFault (b : FaultBit) (s : State) : Reply × State := ((.fault, []), s.setFaultBit b)

/-- An illegal host command is answered ILLEGAL_COMMAND, with no exchange and no register write (30_encoding.md R105). -/
def illegalCommand (s : State) : State := answer (raiseError .illegalCommand [] s)

/-! ## Around the operations -/

/-- Block reset: every register takes its reset value, a partly received command is discarded, TRACE starts empty, no
exchange is made (70_reset_and_hazards.md R350, R351). The profile stays (10_state.md R36), and so do the answers the
external agents are going to give (log 12). -/
def blockReset (s : State) : State := { State.reset with profile := s.profile, oracle := s.oracle }

/-- The block waits for bytes of a command that HOST has not supplied yet (30_encoding.md R101): there is no step
(60_exceptions.md R337). With part of a command it is stuck; with no byte, no command has been issued (log 8). -/
def waitForHost (s : State) : Host.Outcome State Fault Refusal :=
  if s.hostIn = [] then .fault .noCommand else .fault .stuck

/-- Whether an INIT is running (10_state.md R29). -/
def State.busy (s : State) : Bool := phaseBusy s.buPhase

end Sys2Proof.Machine
end

