-- ==== Sys2Proof/Machine/Wire.lean ====
section
/-! DEFINITION. The wire forms (spec/30_encoding.md R91 to R94): each is one exchange of its frame, logged with its answer in
TRACE (20_memory.md R62). The host operations and INIT are made of the same exchanges. A wire form is no host command and
has no response (log 13). -/

namespace Sys2Proof.Machine

/-- One exchange of a frame. -/
def wireExchange (tx : List Byte) (s : State) : Host.Outcome State Fault Refusal := .next (xfer tx s).2

/-- One exchange of a strobe's code (R92); a flush strobe without a code is no transaction (log 14). -/
def wireStrobeExchange (st : Strobe) (s : State) : Host.Outcome State Fault Refusal :=
  match strobeCode s.profile st with
  | some code => wireExchange (frameStrobe code) s
  | none => .refused .absentStrobeCode

/-- WIRE_SINGLE_WRITE: `[SINGLE|WRITE|a, v]` (R91). -/
def execWireSingleWrite (a : RegAddr) (v : Byte) (s : State) : Host.Outcome State Fault Refusal :=
  wireExchange (frameSingleWrite a v) s

/-- WIRE_SINGLE_READ: `[SINGLE|READ|a, 0x00]` (R91). -/
def execWireSingleRead (a : RegAddr) (s : State) : Host.Outcome State Fault Refusal :=
  wireExchange (frameSingleRead a) s

/-- WIRE_BURST_WRITE: `[BURST|WRITE|a] ++ p` (R91). -/
def execWireBurstWrite (a : RegAddr) (p : List Byte) (s : State) : Host.Outcome State Fault Refusal :=
  wireExchange (frameBurstWrite a p) s

/-- WIRE_BURST_READ: `[BURST|READ|a]` and count filler bytes (R91). -/
def execWireBurstRead (a : RegAddr) (count : Nat) (s : State) : Host.Outcome State Fault Refusal :=
  wireExchange (frameBurstRead a count) s

/-- WIRE_STATUS_POLL: `[0x00]` (R93). -/
def execWireStatusPoll (s : State) : Host.Outcome State Fault Refusal := wireExchange framePoll s

/-- WIRE_STROBE_RESET (R92). -/
def execWireStrobeReset (s : State) : Host.Outcome State Fault Refusal := wireStrobeExchange .reset s

/-- WIRE_STROBE_FS_TX_ON (R92). -/
def execWireStrobeFsTxOn (s : State) : Host.Outcome State Fault Refusal := wireStrobeExchange .fsTxOn s

/-- WIRE_STROBE_XTAL_OFF (R92). -/
def execWireStrobeXtalOff (s : State) : Host.Outcome State Fault Refusal := wireStrobeExchange .xtalOff s

/-- WIRE_STROBE_CALIBRATE (R92). -/
def execWireStrobeCalibrate (s : State) : Host.Outcome State Fault Refusal := wireStrobeExchange .calibrate s

/-- WIRE_STROBE_RX (R92). -/
def execWireStrobeRx (s : State) : Host.Outcome State Fault Refusal := wireStrobeExchange .rx s

/-- WIRE_STROBE_TX (R92). -/
def execWireStrobeTx (s : State) : Host.Outcome State Fault Refusal := wireStrobeExchange .tx s

/-- WIRE_STROBE_IDLE (R92). -/
def execWireStrobeIdle (s : State) : Host.Outcome State Fault Refusal := wireStrobeExchange .idle s

/-- WIRE_STROBE_POWER_DOWN (R92). -/
def execWireStrobePowerDown (s : State) : Host.Outcome State Fault Refusal := wireStrobeExchange .powerDown s

/-- WIRE_STROBE_FLUSH_RX (R92, 41_bringup.md R186). -/
def execWireStrobeFlushRx (s : State) : Host.Outcome State Fault Refusal := wireStrobeExchange .flushRx s

/-- WIRE_STROBE_FLUSH_TX (R92, 41_bringup.md R186). -/
def execWireStrobeFlushTx (s : State) : Host.Outcome State Fault Refusal := wireStrobeExchange .flushTx s

end Sys2Proof.Machine
end

