-- ==== Sys2Proof/Machine/RegAccess.lean ====
section
/-! DEFINITION. The register access operations (spec/40_register_access.md R134 to R138). -/

namespace Sys2Proof.Machine

/-- SET_REG(a, v) (R134). -/
def setReg (a v : Byte) (s : State) : Reply × State :=
  if addrRefused a then raiseError .addressOutOfRange [] s
  else
    match xfer (frameSingleWrite (addrField a) v) s with
    | (.fail, s') => raiseError .transferFail [] s'
    | (.ok _, s') => returnOk [] s'

/-- GET_REG(a) (R135): the second received byte; the status echo is dropped. -/
def getReg (a : Byte) (s : State) : Reply × State :=
  if addrRefused a then raiseError .addressOutOfRange [] s
  else
    match xfer (frameSingleRead (addrField a)) s with
    | (.fail, s') => raiseError .transferFail [] s'
    | (.ok rx, s') => returnOk [rxByte rx 1] s'

/-- STROBE(sel) (R136). -/
def strobe (sel : Byte) (s : State) : Reply × State :=
  match selectorCode s.profile sel with
  | none => raiseError .illegalCommand [] s
  | some code =>
    match xfer (frameStrobe code) s with
    | (.fail, s') => raiseError .transferFail [] s'
    | (.ok _, s') => returnOk [] s'

/-- FIFO_WRITE(p) (R137) as SEND also uses it: the data exchange, then the TX strobe; no strobe after a failure. -/
def fifoWrite (p : List Byte) (s : State) : ResultCode × State :=
  match alloc (p.length + 1) s with
  | (false, s') => (.allocFail, s')
  | (true, s') =>
    match xfer (frameBurstWrite s'.profile.fifoAddr p) s' with
    | (.fail, s'') => (.transferFail, s'')
    | (.ok _, s'') =>
      match xfer (frameStrobe s''.profile.strobes.tx) s'' with
      | (.fail, s''') => (.transferFail, s''')
      | (.ok _, s''') => (.ok, s''')

/-- FIFO_READ() (R138) as RECV_PACKET also uses it: the count the status byte reports and that many bytes. -/
def fifoRead (s : State) : Except ResultCode (Byte × List Byte) × State :=
  match poll s with
  | (none, s') => (.error .transferFail, s')
  | (some sb, s') =>
    match alloc ((statusFifoCount sb).toNat + 1) s' with
    | (false, s'') => (.error .allocFail, s'')
    | (true, s'') =>
      match xfer (frameBurstRead s''.profile.fifoAddr (statusFifoCount sb).toNat) s'' with
      | (.fail, s''') => (.error .transferFail, s''')
      | (.ok rx, s''') => (.ok (statusFifoCount sb, rx.drop 1), s''')

/-- The reply of FIFO_WRITE. -/
def fifoWriteReply (r : ResultCode × State) : Reply × State := ((r.1, []), r.2)

/-- The reply of FIFO_READ: the count byte before the payload (R138). -/
def fifoReadReply (r : Except ResultCode (Byte × List Byte) × State) : Reply × State :=
  match r with
  | (.error code, s) => raiseError code [] s
  | (.ok (c, p), s) => returnOk (c :: p) s

/-- The meaning of SET_REG. -/
def execSetReg (a v : Byte) (s : State) : Host.Outcome State Fault Refusal := .next (answer (setReg a v s))

/-- The meaning of GET_REG. -/
def execGetReg (a : Byte) (s : State) : Host.Outcome State Fault Refusal := .next (answer (getReg a s))

/-- The meaning of STROBE. -/
def execStrobe (sel : Byte) (s : State) : Host.Outcome State Fault Refusal := .next (answer (strobe sel s))

/-- The meaning of FIFO_WRITE. -/
def execFifoWrite (p : List Byte) (s : State) : Host.Outcome State Fault Refusal :=
  .next (answer (fifoWriteReply (fifoWrite p s)))

/-- The meaning of FIFO_READ. -/
def execFifoRead (s : State) : Host.Outcome State Fault Refusal := .next (answer (fifoReadReply (fifoRead s)))

end Sys2Proof.Machine
end

