-- ==== Sys2Proof/Machine/Bringup.lean ====
section
/-! DEFINITION. The bring-up sequencer (spec/41_bringup.md R170 to R181). INIT makes its XInit at once; after that each step
of the machine makes one exchange of the running INIT, so that an unbounded poll of a chip that never reports ready is an
infinite execution (60_exceptions.md R336, log 10). BU_PHASE, CFG_IDX, SETTLE_IDX and POLL_CNT say which exchange is next. -/

namespace Sys2Proof.Machine

/-- A raise inside a phase: BU_PHASE <- FAILED is written first, then INIT ends with the result (R179). -/
def failInit (code : ResultCode) (data : List Byte) (s : State) : State :=
  answer (raiseError code data (s.setPhase .failed))

/-- Completion: BU_PHASE <- READY and `[OK]` (R170, R178). -/
def completeInit (s : State) : State := answer (returnOk [] (s.setPhase .ready))

/-- The start of a poll loop: POLL_CNT <- 0 (R173, R174). -/
def startPoll (p : BuPhase) (s : State) : State := (s.setPhase p).setPollCnt 0

/-- The start of phase CONFIG (R176). -/
def startConfig (s : State) : State := (s.setPhase .config).setCfgIdx 0

/-- The start of phase SETTLE (R177). -/
def startSettle (s : State) : State := (s.setPhase .settle).setSettleIdx 0

/-- `POLL_LIMIT ≠ 0 and POLL_CNT ≥ POLL_LIMIT` (R173, R174). -/
def pollLimitReached (s : State) : Bool := decide (s.pollLimit ≠ 0) && decide (s.pollLimit.toNat ≤ s.pollCnt)

/-- A poll answered not ready: TIMEOUT at the limit, else the loop goes on (R173, R174). -/
def pollAgain (s : State) : State := if pollLimitReached s then failInit .timeout [] s else s

/-- Phase XPORT_INIT (R171). -/
def phaseXportInit (s : State) : State :=
  match xinit s with
  | (.ok, s') => s'.setPhase .reset
  | (.openFail, s') => failInit .transportOpenFail [] s'
  | (.configFail, s') => failInit .transportConfigFail [] s'

/-- Phase RESET (R172). -/
def phaseReset (s : State) : State :=
  match xfer (frameStrobe s.profile.strobes.reset) s with
  | (.fail, s') => failInit .transferFail [] s'
  | (.ok _, s') => startPoll .readyPoll s'

/-- One turn of phase READY_POLL (R173). -/
def phaseReadyPoll (s : State) : State :=
  match poll s with
  | (none, s') => failInit .transferFail [] s'
  | (some sb, s') =>
    if statusNotReady sb then pollAgain (s'.setPollCnt (s'.pollCnt + 1))
    else startPoll .idPoll (s'.setPollCnt (s'.pollCnt + 1))

/-- The identity check on the value received in the exchange that reported ready (R175). -/
def identityCheck (v : Byte) (s : State) : State :=
  if v = idExpected then startConfig s else failInit .deviceMismatch [v] s

/-- One turn of phase ID_POLL (R174). -/
def phaseIdPoll (s : State) : State :=
  match statusRead s.profile.idRegAddr s with
  | (none, s') => failInit .transferFail [] s'
  | (some (sb, v), s') =>
    if statusNotReady sb then pollAgain (s'.setPollCnt (s'.pollCnt + 1))
    else identityCheck v (s'.setPollCnt (s'.pollCnt + 1))

/-- The end of one configuration write: CFG_IDX moves on, and after the last entry phase SETTLE starts (R176). -/
def nextEntry (s : State) : State :=
  if s.cfgIdx + 1 < s.profile.configTable.length then s.setCfgIdx (s.cfgIdx + 1)
  else startSettle (s.setCfgIdx (s.cfgIdx + 1))

/-- One configuration write of phase CONFIG (R176); past the table's end the phase is over (log 27). -/
def phaseConfig (s : State) : State :=
  match s.profile.configTable[s.cfgIdx]? with
  | none => startSettle s
  | some (a, v) =>
    match xfer (frameSingleWrite a v) s with
    | (.fail, s') => failInit .transferFail [] s'
    | (.ok _, s') => nextEntry s'

/-- The end of one settle strobe: SETTLE_IDX moves on, and after the fourth INIT is complete (R177). -/
def nextSettle (s : State) : State :=
  if s.settleIdx + 1 < (settleCodes s.profile).length then s.setSettleIdx (s.settleIdx + 1)
  else completeInit (s.setSettleIdx (s.settleIdx + 1))

/-- One settle strobe of phase SETTLE (R177); past the sequence's end INIT is complete (log 27). -/
def phaseSettle (s : State) : State :=
  match (settleCodes s.profile)[s.settleIdx]? with
  | none => completeInit s
  | some code =>
    match xfer (frameStrobe code) s with
    | (.fail, s') => failInit .transferFail [] s'
    | (.ok _, s') => nextSettle s'

/-- One step of a running INIT (R170). -/
def bringUpStep (s : State) : State :=
  match s.buPhase with
  | .xportInit => phaseXportInit s
  | .reset => phaseReset s
  | .readyPoll => phaseReadyPoll s
  | .idPoll => phaseIdPoll s
  | .config => phaseConfig s
  | .settle => phaseSettle s
  | .uninit => s
  | .ready => s
  | .failed => s

/-- The wire form a running INIT performs next; none in phase XPORT_INIT, whose event is an XInit, and outside INIT. -/
def bringUpForm (s : State) : Option Instr :=
  match s.buPhase with
  | .reset => some .wireStrobeReset
  | .readyPoll => some .wireStatusPoll
  | .idPoll => some (.wireBurstRead s.profile.idRegAddr 1)
  | .config => s.profile.configTable[s.cfgIdx]?.map fun e => .wireSingleWrite e.1 e.2
  | .settle =>
    [Instr.wireStrobeIdle, Instr.wireStrobeIdle, Instr.wireStrobePowerDown, Instr.wireStrobeIdle][s.settleIdx]?
  | .uninit => none
  | .xportInit => none
  | .ready => none
  | .failed => none

/-- The meaning of INIT: BU_PHASE <- XPORT_INIT and the Transport's initialisation (R170, R171); the steps after it run
the rest (`bringUpStep`). It may be issued in any phase (R181). -/
def execInit (s : State) : Host.Outcome State Fault Refusal := .next (phaseXportInit (s.setPhase .xportInit))

end Sys2Proof.Machine
end

