-- ==== Sys2Proof/Machine/Color.lean ====
section
/-! DEFINITION. The colour converter (spec/43_color.md R260 to R273): exact values, rounded once per component.

The hue needs the angle θ0 with cos θ0 = A / (2·√D), A = 2r − g − b, D = (r−g)² + (r−b)(g−b) (R264, R271). As 4D − A² = 3(g−b)²,
θ0 is the argument of the number A + |g−b|·√−3. Its 255-th power has the argument 255·θ0, so the number of half turns
that the powers 1 to 255 complete is ⌊255·θ0/π⌋ exactly, and that decides the rounding of H* = 255·θ0/(2π) (R266, log 18). -/

namespace Sys2Proof.Machine

/-- A number re + im·√−3 with integer parts. -/
structure Zeta where
  re : Int
  im : Int
deriving DecidableEq, Repr

/-- The product of two such numbers. -/
def zetaMul (w z : Zeta) : Zeta := ⟨w.re * z.re - 3 * (w.im * z.im), w.re * z.im + w.im * z.re⟩

/-- Its argument lies in the lower half turn [π, 2π). -/
def zetaLower (z : Zeta) : Bool := decide (z.im < 0) || (decide (z.im = 0) && decide (z.re < 0))

/-- How many half turns are completed while w is multiplied n times by z, whose argument lies in [0, π]: each
multiplication completes one exactly when it moves w between the upper and the lower half turn. -/
def halfTurns (z : Zeta) : Nat → Zeta → Nat
  | 0, _ => 0
  | n + 1, w => (if zetaLower (zetaMul w z) != zetaLower w then 1 else 0) + halfTurns z n (zetaMul w z)

/-- `A = 2r − g − b` (R271). -/
def hueA (r g b : Nat) : Int := 2 * (r : Int) - g - b

/-- `D = (r−g)² + (r−b)(g−b)` (R271). -/
def hueD (r g b : Nat) : Int := ((r : Int) - g) * (r - g) + (r - b) * (g - b)

/-- The number whose argument is θ0. -/
def hueZeta (r g b : Nat) : Zeta := ⟨hueA r g b, ((g : Int) - b).natAbs⟩

/-- `⌊255·θ0/π⌋`. -/
def hueHalfTurns (r g b : Nat) : Nat := halfTurns (hueZeta r g b) 255 ⟨1, 0⟩

/-- The three exact hue ties, named by the integer below: H* = 42.5, 127.5 and 212.5 (R271). -/
inductive HueTie where
  | at42
  | at127
  | at212
deriving DecidableEq, Repr

/-- The hue tie a colour stands at, if any (R271). -/
def hueTie (r g b : Nat) : Option HueTie :=
  if 0 < hueA r g b ∧ hueA r g b * hueA r g b = hueD r g b then (if b ≤ g then some .at42 else some .at212)
  else if hueA r g b < 0 ∧ hueA r g b * hueA r g b = 4 * hueD r g b then some .at127
  else none

/-- The integer below a hue tie (R271). -/
def hueTieFloor : HueTie → Nat
  | .at42 => 42
  | .at127 => 127
  | .at212 => 212

/-- What the reference binary64 evaluation was measured to give at a hue tie (R272, log 16). TESTED. -/
def hueTieBinary64 : HueTie → Nat
  | .at42 => 43
  | .at127 => 128
  | .at212 => 212

/-- `r' = r/sum` and its like (R263). -/
def ratio (x sum : Nat) : Rat := (x : Rat) / (sum : Rat)

/-- `TIE_CHOICE(k, r', g', b')` (R271). -/
def tieChoice (k : TieComponent) (r g b : Nat) : TieSide :=
  Config.tieChoice k (ratio r (r + g + b)) (ratio g (r + g + b)) (ratio b (r + g + b))

/-- The neighbour of a tie that a side names, from the integer below it. -/
def tieNeighbour (side : TieSide) (below : Nat) : Nat :=
  match side with
  | .floor => below
  | .ceil => below + 1

/-- `Round(H*)` off the ties: with n = ⌊255·θ0/π⌋, H* = θ·255/(2π) rounds to ⌊(n+1)/2⌋, and after the flip (b > g,
R265) to 255 minus that. -/
def hueNearest (r g b : Nat) : Nat :=
  if b ≤ g then (hueHalfTurns r g b + 1) / 2 else 255 - (hueHalfTurns r g b + 1) / 2

/-- The hue (R266), its ties by TIE_MODE (R271). -/
def hue (mode : TieMode) (r g b : Nat) : Nat :=
  match hueTie r g b, mode with
  | none, _ => hueNearest r g b
  | some t, .draw => tieNeighbour (tieChoice .hue r g b) (hueTieFloor t)
  | some t, .binary64 => hueTieBinary64 t

/-- `sum − 3m` with m the smallest of the three (R267). -/
def satSpan (r g b : Nat) : Nat := r + g + b - 3 * min r (min g b)

/-- The saturation tie: 510·(sum − 3m) is divisible by sum but 255·(sum − 3m) is not (R271). -/
def satTie (r g b : Nat) : Bool :=
  decide (510 * satSpan r g b % (r + g + b) = 0) && decide (255 * satSpan r g b % (r + g + b) ≠ 0)

/-- `Round(S*)` off the ties, S* = 255·(sum − 3m)/sum (R267). -/
def satNearest (r g b : Nat) : Nat := (510 * satSpan r g b + (r + g + b)) / (2 * (r + g + b))

/-! ## The reference binary64 evaluation of the saturation (R272, log 17) -/

/-- The nearest integer, halves to even. -/
def roundHalfEven (q : Rat) : Int :=
  if q - (q.floor : Rat) < 1 / 2 then q.floor
  else if 1 / 2 < q - (q.floor : Rat) then q.floor + 1
  else if q.floor % 2 = 0 then q.floor
  else q.floor + 1

/-- 2 to an integer power. -/
def twoPow (e : Int) : Rat :=
  match e with
  | .ofNat n => ((2 ^ n : Nat) : Rat)
  | .negSucc n => 1 / ((2 ^ (n + 1) : Nat) : Rat)

/-- The exponent e with 2^e ≤ q < 2^(e+1), for q > 0. -/
def floorLog2 (q : Rat) : Int :=
  if twoPow ((q.num.natAbs.log2 : Int) - q.den.log2) ≤ q then (q.num.natAbs.log2 : Int) - q.den.log2
  else (q.num.natAbs.log2 : Int) - q.den.log2 - 1

/-- The binary64 number nearest q, halves to even, for q ≥ 0 in the normal range. -/
def binary64 (q : Rat) : Rat :=
  if q = 0 then 0
  else (roundHalfEven (q * twoPow (52 - floorLog2 q)) : Rat) * twoPow (floorLog2 q - 52)

/-- The smallest of three binary64 numbers. -/
def min3 (x y z : Rat) : Rat := min x (min y z)

/-- `sat = round((1 - 3*min(rp,gp,bp))*255)`, each operation rounded to binary64, round half away from zero (R272). -/
def satBinary64 (r g b : Nat) : Nat :=
  ((binary64 (binary64 (1 - binary64 (3 * min3 (binary64 (ratio r (r + g + b))) (binary64 (ratio g (r + g + b)))
    (binary64 (ratio b (r + g + b))))) * 255) + 1 / 2).floor).toNat

/-- The saturation (R267), its ties by TIE_MODE (R271). -/
def saturation (mode : TieMode) (r g b : Nat) : Nat :=
  match satTie r g b, mode with
  | false, _ => satNearest r g b
  | true, .draw => tieNeighbour (tieChoice .saturation r g b) (255 * satSpan r g b / (r + g + b))
  | true, .binary64 => satBinary64 r g b

/-- The intensity `Round(sum/3) = (sum + 1) div 3` (R262, R268). -/
def intensity (r g b : Nat) : Nat := (r + g + b + 1) / 3

/-- RGB_TO_HSI(r, g, b) (R260): black (R261), grey (R262), and the general case. -/
def rgbToHsi (mode : TieMode) (r g b : Nat) : List Byte :=
  if r + g + b = 0 then [0x00, 0x00, 0x00]
  else if r = g ∧ g = b then [0x00, 0x00, BitVec.ofNat 8 (intensity r g b)]
  else [BitVec.ofNat 8 (hue mode r g b), BitVec.ofNat 8 (saturation mode r g b), BitVec.ofNat 8 (intensity r g b)]

/-- The meaning of RGB_TO_HSI: the triple is returned; COLOR is not written (R260). -/
def execRgbToHsi (r g b : Byte) (s : State) : Host.Outcome State Fault Refusal :=
  .next (answer (returnOk (rgbToHsi s.profile.tieMode r.toNat g.toNat b.toNat) s))

end Sys2Proof.Machine
end

