-- ==== Sys2Proof/Machine/Context.lean ====
section
/-! DEFINITION. The session and context register operations (spec/44_context.md R290 to R301). None makes an exchange. -/

namespace Sys2Proof.Machine

/-- A read of a register that may be unwritten: its bytes, or the fault (10_state.md R27). -/
def readWritten (written : Bool) (b : FaultBit) (data : List Byte) (s : State) : Reply × State :=
  if written then returnOk data s else raiseFault b s

/-- The meaning of WR_ADDR (R290). -/
def execWrAddr (a : Address) (s : State) : Host.Outcome State Fault Refusal :=
  .next (answer (returnOk [] (s.writeAddr a)))

/-- The meaning of RD_ADDR (R291). -/
def execRdAddr (s : State) : Host.Outcome State Fault Refusal :=
  .next (answer (readWritten s.addrW .addrUnwritten s.addr.bytes s))

/-- The meaning of WR_SEQ (R292). -/
def execWrSeq (v : Byte) (s : State) : Host.Outcome State Fault Refusal :=
  .next (answer (returnOk [] (s.writeSeq v)))

/-- The meaning of RD_SEQ (R293). -/
def execRdSeq (s : State) : Host.Outcome State Fault Refusal :=
  .next (answer (readWritten s.seqW .seqUnwritten [s.seq] s))

/-- The meaning of WR_COLOR (R294). -/
def execWrColor (c : Color) (s : State) : Host.Outcome State Fault Refusal :=
  .next (answer (returnOk [] (s.writeColor c)))

/-- The meaning of RD_COLOR (R295). -/
def execRdColor (s : State) : Host.Outcome State Fault Refusal :=
  .next (answer (readWritten s.colorW .colorUnwritten s.color.bytes s))

/-- The meaning of WR_CTRL (R296). -/
def execWrCtrl (v : Byte) (s : State) : Host.Outcome State Fault Refusal :=
  .next (answer (returnOk [] (s.writeCtrl v)))

/-- The meaning of RD_CTRL (R297). -/
def execRdCtrl (s : State) : Host.Outcome State Fault Refusal := .next (answer (returnOk [s.ctrl] s))

/-- The meaning of WR_POLL_LIMIT (R298). -/
def execWrPollLimit (l : BitVec 32) (s : State) : Host.Outcome State Fault Refusal :=
  .next (answer (returnOk [] (s.setPollLimit l)))

/-- The meaning of RD_POLL_LIMIT (R299). -/
def execRdPollLimit (s : State) : Host.Outcome State Fault Refusal :=
  .next (answer (returnOk (toLe32 s.pollLimit) s))

/-- The meaning of RD_FAULT: reading does not clear it (R300). -/
def execRdFault (s : State) : Host.Outcome State Fault Refusal := .next (answer (returnOk [s.fault] s))

/-- The meaning of RD_BUSTATE: the phase, zero-extended to a byte (R301). -/
def execRdBustate (s : State) : Host.Outcome State Fault Refusal :=
  .next (answer (returnOk [(phaseCode s.buPhase).setWidth 8] s))

end Sys2Proof.Machine
end

