-- ==== Sys2Proof/Machine/Packet.lean ====
section
/-! DEFINITION. The packet codec and the lamp session operations (spec/42_packet_codec.md R210 to R222). -/

namespace Sys2Proof.Machine

/-- `ColorOf(cf, c)` (R211): the supplied colour, or COLOR, whose absence is a fault. -/
def colorOf (cf : Byte) (c : Color) (s : State) : Except FaultBit Color :=
  if cf = 0x01 then .ok c
  else if s.colorW then .ok s.color
  else .error .colorUnwritten

/-- The packet BUILD makes of the session, or the first unwritten register in the order ADDR, SEQ, COLOR (R212,
60_exceptions.md R324). -/
def buildPacket (cmd cf : Byte) (c : Color) (s : State) : Except FaultBit (List Byte) :=
  if s.addrW then
    if s.seqW then
      match colorOf cf c s with
      | .ok col => .ok (pkt s.addr cmd s.seq col)
      | .error b => .error b
    else .error .seqUnwritten
  else .error .addrUnwritten

/-- BUILD(cmd, cf, c) (R212). -/
def build (cmd cf : Byte) (c : Color) (s : State) : Reply × State :=
  if cmdRefused cmd || cfRefused cf then raiseError .illegalCommand [] s
  else
    match buildPacket cmd cf c s with
    | .error b => raiseFault b s
    | .ok p => returnOk p s

/-- `SeqAdvance(r)` (R215): legacy always, strict only on OK. -/
def seqAdvance (r : ResultCode) (s : State) : State :=
  if strictSeq s.ctrl then (if r = .ok then s.advanceSeq else s) else s.advanceSeq

/-- The end of SEND: the sequence step, then FIFO_WRITE's result (R214). -/
def sendReply (r : ResultCode × State) : Reply × State := ((r.1, []), seqAdvance r.1 r.2)

/-- SEND(cmd, cf, c) (R214). -/
def send (cmd cf : Byte) (c : Color) (s : State) : Reply × State :=
  if cmdRefused cmd || cfRefused cf then raiseError .illegalCommand [] s
  else
    match buildPacket cmd cf c s with
    | .error b => raiseFault b s
    | .ok p => sendReply (fifoWrite p s)

/-- The colour operand of a send that carries none; it is ignored (R217, R218). -/
def noColor : Color := ⟨0x00, 0x00, 0x00⟩

/-- The bytes of a packet, decoded: length, then preamble, then the fields raw; the frame errors return the given
data (R220, R221). -/
def parseFrame (b errData : List Byte) (s : State) : Reply × State :=
  if b.length ≠ packetLength then raiseError .frameLength errData s
  else if b.head? ≠ some preamble then raiseError .framePreamble errData s
  else returnOk (b.drop 1) s

/-- PARSE(b) (R220): its errors return no data. -/
def parse (b : List Byte) (s : State) : Reply × State := parseFrame b [] s

/-- RECV_PACKET() (R221): its frame errors return the bytes read, with their count. -/
def recvPacket (s : State) : Reply × State :=
  match fifoRead s with
  | (.error code, s') => raiseError code [] s'
  | (.ok (c, p), s') => parseFrame p (c :: p) s'

/-- The meaning of BUILD. -/
def execBuild (cmd cf : Byte) (c : Color) (s : State) : Host.Outcome State Fault Refusal :=
  .next (answer (build cmd cf c s))

/-- The meaning of SEND. -/
def execSend (cmd cf : Byte) (c : Color) (s : State) : Host.Outcome State Fault Refusal :=
  .next (answer (send cmd cf c s))

/-- The meaning of TURN_ON: SEND(0x05, 0, -) (R217). -/
def execTurnOn (s : State) : Host.Outcome State Fault Refusal := .next (answer (send 0x05 0x00 noColor s))

/-- The meaning of TURN_OFF: SEND(0x07, 0, -) (R218). -/
def execTurnOff (s : State) : Host.Outcome State Fault Refusal := .next (answer (send 0x07 0x00 noColor s))

/-- The meaning of SET_COLOR: SEND(0x03, 1, c) (R219). -/
def execSetColor (c : Color) (s : State) : Host.Outcome State Fault Refusal := .next (answer (send 0x03 0x01 c s))

/-- The meaning of LEARN: always NOT_IMPLEMENTED, whatever the operands (R222). -/
def execLearn (_maxAddresses : Byte) (_duration : BitVec 32) (s : State) : Host.Outcome State Fault Refusal :=
  .next (answer (raiseError .notImplemented [] s))

/-- The meaning of PARSE. -/
def execParse (b : List Byte) (s : State) : Host.Outcome State Fault Refusal := .next (answer (parse b s))

/-- The meaning of RECV_PACKET. -/
def execRecvPacket (s : State) : Host.Outcome State Fault Refusal := .next (answer (recvPacket s))

end Sys2Proof.Machine
end

