-- ==== Sys2Proof/Machine/Dispatch.lean ====
section
/-! DEFINITION. One arm per instruction, each a direct call of its meaning. -/

namespace Sys2Proof.Machine

def exec (i : Instr) (s : State) : Host.Outcome State Fault Refusal :=
  match i with
  -- spec/41_bringup.md
  | .init => Sys2Proof.Machine.execInit s
  -- spec/40_register_access.md
  | .setReg a v => Sys2Proof.Machine.execSetReg a v s
  | .getReg a => Sys2Proof.Machine.execGetReg a s
  | .strobe sel => Sys2Proof.Machine.execStrobe sel s
  | .fifoWrite p => Sys2Proof.Machine.execFifoWrite p s
  | .fifoRead => Sys2Proof.Machine.execFifoRead s
  -- spec/42_packet_codec.md
  | .build cmd cf c => Sys2Proof.Machine.execBuild cmd cf c s
  | .send cmd cf c => Sys2Proof.Machine.execSend cmd cf c s
  | .turnOn => Sys2Proof.Machine.execTurnOn s
  | .turnOff => Sys2Proof.Machine.execTurnOff s
  | .setColor c => Sys2Proof.Machine.execSetColor c s
  | .learn max d => Sys2Proof.Machine.execLearn max d s
  | .parse b => Sys2Proof.Machine.execParse b s
  | .recvPacket => Sys2Proof.Machine.execRecvPacket s
  -- spec/43_color.md
  | .rgbToHsi r g b => Sys2Proof.Machine.execRgbToHsi r g b s
  -- spec/44_context.md
  | .wrAddr a => Sys2Proof.Machine.execWrAddr a s
  | .rdAddr => Sys2Proof.Machine.execRdAddr s
  | .wrSeq v => Sys2Proof.Machine.execWrSeq v s
  | .rdSeq => Sys2Proof.Machine.execRdSeq s
  | .wrColor c => Sys2Proof.Machine.execWrColor c s
  | .rdColor => Sys2Proof.Machine.execRdColor s
  | .wrCtrl v => Sys2Proof.Machine.execWrCtrl v s
  | .rdCtrl => Sys2Proof.Machine.execRdCtrl s
  | .wrPollLimit l => Sys2Proof.Machine.execWrPollLimit l s
  | .rdPollLimit => Sys2Proof.Machine.execRdPollLimit s
  | .rdFault => Sys2Proof.Machine.execRdFault s
  | .rdBustate => Sys2Proof.Machine.execRdBustate s
  -- spec/30_encoding.md, wire forms
  | .wireSingleWrite a v => Sys2Proof.Machine.execWireSingleWrite a v s
  | .wireSingleRead a => Sys2Proof.Machine.execWireSingleRead a s
  | .wireBurstWrite a p => Sys2Proof.Machine.execWireBurstWrite a p s
  | .wireBurstRead a count => Sys2Proof.Machine.execWireBurstRead a count s
  | .wireStatusPoll => Sys2Proof.Machine.execWireStatusPoll s
  | .wireStrobeReset => Sys2Proof.Machine.execWireStrobeReset s
  | .wireStrobeFsTxOn => Sys2Proof.Machine.execWireStrobeFsTxOn s
  | .wireStrobeXtalOff => Sys2Proof.Machine.execWireStrobeXtalOff s
  | .wireStrobeCalibrate => Sys2Proof.Machine.execWireStrobeCalibrate s
  | .wireStrobeRx => Sys2Proof.Machine.execWireStrobeRx s
  | .wireStrobeTx => Sys2Proof.Machine.execWireStrobeTx s
  | .wireStrobeIdle => Sys2Proof.Machine.execWireStrobeIdle s
  | .wireStrobePowerDown => Sys2Proof.Machine.execWireStrobePowerDown s
  | .wireStrobeFlushRx => Sys2Proof.Machine.execWireStrobeFlushRx s
  | .wireStrobeFlushTx => Sys2Proof.Machine.execWireStrobeFlushTx s

end Sys2Proof.Machine
end

