-- ==== Sys2Proof/Machine/Fetch.lean ====
section
/-! DEFINITION. What a step does between operations: it takes the next host command from the bytes HOST supplied (spec/30_encoding.md
R101), answers an illegal one (R105), or has no step while one is incomplete (60_exceptions.md R337); how HOST issues a
command; and where a table word is put so that the next step runs it. -/

namespace Sys2Proof.Machine

/-- The next host command runs, or is answered ILLEGAL_COMMAND, or is still incomplete and there is no step (R101,
R105, 60_exceptions.md R337). -/
def runCommand (s : State) : Host.Outcome State Fault Refusal :=
  match decode s.hostIn with
  | .instr i rest => exec i (s.setHostIn rest)
  | .unassignedCode _ rest => .next (illegalCommand (s.setHostIn rest))
  | .incomplete => waitForHost s

/-- One step of a machine with a legal profile: block reset when asserted (70_reset_and_hazards.md R350), else the running
INIT goes on, else the next host command. No command is accepted before the last is finished (20_memory.md R69). -/
def legalStep (s : State) : Host.Outcome State Fault Refusal :=
  if s.resetIn then .next (blockReset s)
  else if s.busy then .next (bringUpStep s)
  else runCommand s

/-- HOST issues a command: its bytes, all of them, are handed to a block that waits for a command (60_exceptions.md R335). -/
def issue (c : List Byte) (s : State) : State := s.setHostIn c

/-- The phase in which the next step reads a host command: a running INIT would go first. -/
def idlePhase (p : BuPhase) : BuPhase := if phaseBusy p then .uninit else p

/-- The bytes of a table word are the next bytes HOST supplied, and the next step reads a command. -/
def fetchState (s : State) (nbits w : Nat) : State :=
  { s with hostIn := bytesOfTableWord nbits w, resetIn := false, buPhase := idlePhase s.buPhase }

end Sys2Proof.Machine
end

