-- ==== Sys2Proof/Machine/Step.lean ====
section
/-! DEFINITION. One step of the machine. A profile that breaks spec/00_scope.md R8 is refused (60_exceptions.md R337). -/

namespace Sys2Proof.Machine

/-- One step. -/
def step (s : State) : Host.Outcome State Fault Refusal :=
  if profileWf s.profile then legalStep s else .refused .profileRefused

/-- The state in which the next step fetches and runs the instruction of a table word (log 20, log 21). -/
def State.withFetchWord (s : State) (nbits w : Nat) : State := fetchState s nbits w

end Sys2Proof.Machine
end

