-- ==== Sys2Proof/Machine/RefChip.lean ====
section
/-! DEFINITION. The reference responder REFCHIP (spec/20_memory.md R75 to R78) and the informative chip-state relation
ChipStep (41_bringup.md R185). A test fixture: pure functions beside the machine, no part of State (10_state.md R35)
and no claim about a chip. A claim that uses it takes "the answers in the trace are REFCHIP's" as a named premise
(`refFollows`). -/

namespace Sys2Proof.Machine

/-- The state of REFCHIP (R75): REG[0..63], STAT[0x30..0x3D], the queues, AIR, CSTATE, NRDY_LEFT, and the per-test count
RESET_NRDY (R78). -/
structure RefChip where
  reg : List Byte
  stat : List Byte
  rxq : List Byte
  txq : List Byte
  air : List (List Byte)
  cstate : ChipState
  nrdyLeft : Nat
  resetNrdy : Nat
deriving DecidableEq, Repr

/-- The default initial state of the test vectors (95_test_vectors.md): the registers zero, the queues empty, IDLE,
ready, and `STAT[0x30]` = 0x80. The vectors give no other status register: 0x00 at `STAT[0x31..0x3D]` is the model's
choice (log 31). DESIGN CHOICE. -/
def refDefault : RefChip := ⟨zeros 64, 0x80 :: zeros 13, [], [], [], .idle, 0, 0⟩

/-- The status byte (R76). -/
def refStatus (c : RefChip) : Byte :=
  (if 0 < c.nrdyLeft then 0x80 else 0x00) ||| ((chipStateCode c.cstate).setWidth 8 <<< 4) |||
    BitVec.ofNat 8 (min 15 c.rxq.length)

/-- At the end of each exchange other than a RESET strobe, NRDY_LEFT counts down (R76). -/
def refTick (c : RefChip) : RefChip := { c with nrdyLeft := c.nrdyLeft - 1 }

/-- The strobe effects (R78). -/
def refStrobe (c : RefChip) : Strobe → RefChip
  | .reset => { c with cstate := .idle, nrdyLeft := c.resetNrdy, txq := [], rxq := [] }
  | .idle => refTick { c with cstate := .idle }
  | .rx => refTick { c with cstate := .rx }
  | .tx => refTick { c with air := c.air ++ [c.txq], txq := [], cstate := .idle }
  | .fsTxOn => refTick { c with cstate := .fsTxOn }
  | .calibrate => refTick { c with cstate := .idle }
  | .xtalOff => refTick { c with cstate := .idle }
  | .powerDown => refTick { c with cstate := .idle }
  | .flushRx => refTick { c with rxq := [], cstate := .idle }
  | .flushTx => refTick { c with txq := [], cstate := .idle }

/-- `REG[(a + k) mod 64] <- bs[k]` for each k (R77 (6)). -/
def refStore (reg : List Byte) (a : Nat) : List Byte → List Byte
  | [] => reg
  | b :: bs => refStore (reg.set (a % 64) b) (a + 1) bs

/-- `STAT[a]` for a in 0x30 to 0x3D. -/
def refStat (c : RefChip) (a : Nat) : Byte := c.stat.getD (a - 0x30) 0x00

/-- `REG[a mod 64]`. -/
def refReg (c : RefChip) (a : Nat) : Byte := c.reg.getD (a % 64) 0x00

/-- The answer to a transaction of two or more bytes, header h and data bytes d, d not empty (R77 (3) to (9)). -/
def refAccess (p : Profile) (c : RefChip) (h : Byte) (d : List Byte) : List Byte × RefChip :=
  let sb := refStatus c
  let a := headerAddr h
  match headerRw h, headerMode h with
  | .write, .single =>
    (sb :: List.replicate d.length sb, refTick { c with reg := c.reg.set a.toNat (d.headD 0x00) })
  | .read, .single => ([sb, refReg c a.toNat] ++ List.replicate (d.length - 1) sb, refTick c)
  | .write, .burst =>
    if a = p.fifoAddr then (sb :: List.replicate d.length sb, refTick { c with txq := c.txq ++ d })
    else (sb :: List.replicate d.length sb, refTick { c with reg := refStore c.reg a.toNat d })
  | .read, .burst =>
    if a = p.fifoAddr then
      (sb :: (List.range d.length).map fun k => c.rxq.getD k 0x00, refTick { c with rxq := c.rxq.drop d.length })
    else if inStatusRange a then
      ([sb, refStat c a.toNat] ++ List.replicate (d.length - 1) sb, refTick c)
    else (sb :: (List.range d.length).map fun k => refReg c (a.toNat + k), refTick c)

/-- The answer to an exchange (R77). A burst header without data changes nothing but is no strobe (R77 (2)). -/
def refAnswer (p : Profile) (c : RefChip) : List Byte → List Byte × RefChip
  | [] => ([], c)
  | [h] =>
    match strobeOfCode p h with
    | some st => ([refStatus c], refStrobe c st)
    | none => ([refStatus c], refTick c)
  | h :: b :: bs => refAccess p c h (b :: bs)

/-- The events are REFCHIP's, from state c, and its state after them: each exchange is answered as R77 says. `XInit`
answers ok and no exchange fails unless a test scripts otherwise, and an `XInit`, or an exchange scripted to fail,
changes nothing of REFCHIP (R75); so every `XInit` outcome and every fail is admitted, and a claim without scripted
ones says so in a premise. None when the answer to an exchange is not REFCHIP's. -/
def refFollows (p : Profile) (c : RefChip) : List Event → Option RefChip
  | [] => some c
  | .xinit _ :: es => refFollows p c es
  | .xfer _ .fail :: es => refFollows p c es
  | .xfer tx (.ok rx) :: es => if rx = (refAnswer p c tx).1 then refFollows p (refAnswer p c tx).2 es else none

/-! ## The chip-state machine, informative -/

/-- What drives the chip's transitions: a strobe, or an event inside the chip (R185 (2)). -/
inductive ChipEvent where
  | strobe (s : Strobe)
  | autonomous
deriving DecidableEq, Repr

/-- A strobe's intended target; none where the source gives none (R185). -/
def chipTarget : Strobe → Option ChipState
  | .reset => some .idle
  | .idle => some .idle
  | .rx => some .rx
  | .tx => some .tx
  | .fsTxOn => some .fsTxOn
  | .calibrate => some .calibrate
  | .xtalOff => none
  | .powerDown => none
  | .flushRx => some .idle
  | .flushTx => some .idle

/-- An error state, terminal until flushed (R185 (3)). -/
def chipError : ChipState → Bool
  | .rxFifoOverflow => true
  | .txFifoUnderflow => true
  | .idle => false
  | .rx => false
  | .tx => false
  | .fsTxOn => false
  | .calibrate => false
  | .settling => false

/-- The strobes that leave an error state: the matching flush, and RESET (R185, 92 D21). -/
def leavesError : ChipState → Strobe → Bool
  | _, .reset => true
  | .rxFifoOverflow, .flushRx => true
  | .txFifoUnderflow, .flushTx => true
  | _, _ => false

/-- `ChipStep` (R185): whether the move from c to c' on an event is admitted. SETTLING may stand between a strobe and
its target; the status in low power is not given, so every state is admitted there (log 30). R185 does not say whether
SETTLING remembers its strobe: here it does not, and an autonomous move leads from it to any state but an error (log
32). DESIGN CHOICE. -/
def chipStep (c : ChipState) (e : ChipEvent) (c' : ChipState) : Bool :=
  match e with
  | .strobe s =>
    if chipError c && !leavesError c s then decide (c' = c)
    else
      match chipTarget s with
      | some t => decide (c' = t) || decide (c' = .settling)
      | none => true
  | .autonomous =>
    match c with
    | .tx => decide (c' = .idle) || decide (c' = .txFifoUnderflow)
    | .rx => decide (c' = .rxFifoOverflow)
    | .calibrate => decide (c' = .idle)
    | .settling => !chipError c' && decide (c' ≠ .settling)
    | .idle => false
    | .fsTxOn => false
    | .rxFifoOverflow => false
    | .txFifoUnderflow => false

end Sys2Proof.Machine
end

