-- ==== Sys2Proof/Safety.lean ====
section
/-! DEFINITION. What counts as a safe run, and the words the claims are stated in: runs of host commands, their ends and
HOST's duties (spec/60_exceptions.md R323, R335, R336), the invariant of the registers and of TRACE, the order of bring-up
(41_bringup.md R180), configuration before strobes (70_reset_and_hazards.md R353), the nearest binary64 number
(43_color.md R272), what an operation leaves unchanged, and the answers it may get. -/

namespace Sys2Proof.Safety

open Sys2Proof.Machine

/-! ## Runs -/

/-- A run is faulted when FAULT is not zero at its end (60_exceptions.md R323, R336). -/
def faulted (s : State) : Bool := decide (s.fault ≠ 0x00)

/-- A complete host command and nothing after it: one that decodes, or an operation code R105 (1) answers as illegal. -/
def IsCommand (c : List Byte) : Prop := (∃ i, decode c = .instr i []) ∨ ∃ b, decode c = .unassignedCode b []

/-- The block has answered every command HOST issued and waits for the next: HOST may issue one (60_exceptions.md R335). -/
def AwaitsHost (s : State) : Prop := s.resetIn = false ∧ s.busy = false ∧ s.hostIn = []

/-- HOST issues the complete command c to a block that waits for one, and t is the state in which the block has returned the
response to c. There is no step from t (`no_step_of_awaitsHost`), so there is one such t at most (`answered_unique`). -/
def Answered (c : List Byte) (s t : State) : Prop :=
  IsCommand c ∧ AwaitsHost s ∧ AwaitsHost t ∧ ∃ k, Host.Core.run Sys2Proof.core k (issue c s) = .next t

/-- The run of the commands C1 … Cn from the start state s ends in t (60_exceptions.md R336): HOST issues them one at a time,
each complete and after the response to the one before, and t is the state after the response to Cn. HOST has no other
move: no partial command, no command before the last is answered, no exchange of its own (R335, log 34). The registers and
TRACE of the end are those of t, and its n responses are the last n of t. -/
def HostRun : List (List Byte) → State → State → Prop
  | [], s, t => AwaitsHost s ∧ t = s
  | c :: cs, s, u => ∃ t, Answered c s t ∧ HostRun cs t u

/-- The run of C1 … Cn ends in t and is not faulted; no claim is made about a faulted run (R336). -/
def SafeRun (cs : List (List Byte)) (s t : State) : Prop := HostRun cs s t ∧ faulted t = false

/-- The command c issued at s is never answered: `INIT` polls a chip that never reports ready, and the execution is
infinite (60_exceptions.md R336, R337). -/
def Hangs (c : List Byte) (s : State) : Prop :=
  IsCommand c ∧ AwaitsHost s ∧ ∀ k, ∃ t, Host.Core.run Sys2Proof.core k (issue c s) = .next t ∧ ¬ AwaitsHost t

/-- There is no step because HOST has not completed a command (60_exceptions.md R336, R337). No state of a `HostRun` is so. -/
def Stuck (s : State) : Prop := step s = .fault .stuck

/-! ## What an operation leaves unchanged -/

/-- Every register and input is as before; only TRACE, the responses and the oracle may differ. -/
def SameRegisters (s t : State) : Prop := t = { s with trace := t.trace, responses := t.responses, oracle := t.oracle }

/-- Nothing but the bring-up registers, TRACE, the responses and the oracle differs (41_bringup.md R170). -/
def SameButBringUp (s t : State) : Prop :=
  t = { s with buPhase := t.buPhase, cfgIdx := t.cfgIdx, settleIdx := t.settleIdx, pollCnt := t.pollCnt,
               trace := t.trace, responses := t.responses, oracle := t.oracle }

/-- The next state with bytes nothing may read forgotten: an unwritten ADDR, SEQ or COLOR (10_state.md R27), and CFG_IDX,
SETTLE_IDX and POLL_CNT outside the phases that use them (R29). -/
def forgetUnread (s : State) : State :=
  { s with
    addr := if s.addrW then s.addr else ⟨0, 0, 0, 0, 0, 0, 0, 0, 0⟩
    seq := if s.seqW then s.seq else 0
    color := if s.colorW then s.color else ⟨0, 0, 0⟩
    cfgIdx := if s.buPhase = .config then s.cfgIdx else 0
    settleIdx := if s.buPhase = .settle then s.settleIdx else 0
    pollCnt := if s.buPhase = .readyPoll ∨ s.buPhase = .idPoll then s.pollCnt else 0 }

/-- An outcome with its next state forgotten so. -/
def forgetOutcome : Host.Outcome State Fault Refusal → Host.Outcome State Fault Refusal
  | .next s => .next (forgetUnread s)
  | .fault r => .fault r
  | .refused r => .refused r

/-! ## The answers of the external agents -/

/-- An outcome of an exchange of n bytes: n received bytes, or fail (20_memory.md R62). -/
def AnswersBytes (n : Nat) : XferOutcome → Prop
  | .ok rx => rx.length = n
  | .fail => True

/-- o may be the answer to the k-th exchange from s, of n bytes: it is what the tape holds there, where the tape holds an
answer of n bytes, and any answer of n bytes elsewhere. -/
def AnswerAt (s : State) (k n : Nat) (o : XferOutcome) : Prop :=
  AnswersBytes n o ∧ ∀ x, s.oracle.xfer[k]? = some x → AnswersBytes n x → o = x

/-- ok may be the answer to an allocation of n bytes from s (40_register_access.md R133). -/
def AllocAnswer (s : State) (n : Nat) (ok : Bool) : Prop :=
  (s.profile.scratchMax < n → ok = false) ∧
  (n ≤ s.profile.scratchMax → s.profile.allocMayFail = false → ok = true) ∧
  (n ≤ s.profile.scratchMax → s.profile.allocMayFail = true → ∀ x, s.oracle.alloc[0]? = some x → ok = x)

/-- The result code of an operation whose last exchange answered o: OK or TRANSFER_FAIL (60_exceptions.md R320). -/
def transferCode : XferOutcome → Byte
  | .ok _ => 0x00
  | .fail => 0x03

/-- What FIFO_WRITE of p may do from s: its result code and its exchanges (40_register_access.md R137). -/
def FifoWriteRun (s : State) (p : List Byte) (code : Byte) (evs : List Event) : Prop :=
  ∃ ok, AllocAnswer s (p.length + 1) ok ∧
    ((ok = false ∧ code = 0x05 ∧ evs = []) ∨
     (ok = true ∧ ∃ o1, AnswerAt s 0 (p.length + 1) o1 ∧
       ((o1 = .fail ∧ code = 0x03 ∧ evs = [.xfer ((0x40 ||| s.profile.fifoAddr.setWidth 8) :: p) .fail]) ∨
        (o1 ≠ .fail ∧ ∃ o2, AnswerAt s 1 1 o2 ∧ code = transferCode o2 ∧
          evs = [.xfer ((0x40 ||| s.profile.fifoAddr.setWidth 8) :: p) o1, .xfer [s.profile.strobes.tx] o2]))))

/-- What FIFO_READ may do from s: the error code or the payload, and its exchanges (40_register_access.md R138). -/
def FifoReadRun (s : State) (r : Except Byte (List Byte)) (evs : List Event) : Prop :=
  ∃ o1, AnswerAt s 0 1 o1 ∧
    ((o1 = .fail ∧ r = .error 0x03 ∧ evs = [.xfer [0x00] .fail]) ∨
     ∃ sb ok, o1 = .ok [sb] ∧ AllocAnswer s ((sb &&& 0x0F).toNat + 1) ok ∧
       ((ok = false ∧ r = .error 0x05 ∧ evs = [.xfer [0x00] o1]) ∨
        (ok = true ∧ ∃ o2, AnswerAt s 1 ((sb &&& 0x0F).toNat + 1) o2 ∧
          evs = [.xfer [0x00] o1,
                 .xfer ((0xC0 ||| s.profile.fifoAddr.setWidth 8) :: List.replicate (sb &&& 0x0F).toNat 0x00) o2] ∧
          ((o2 = .fail ∧ r = .error 0x03) ∨
           ∃ echo p, o2 = .ok (echo :: p) ∧ p.length = (sb &&& 0x0F).toNat ∧ r = .ok p))))

/-- The wire form i from s is one exchange of tx: it completes, TRACE gains that exchange with its answer, no response is
given, and nothing else moves but the oracle (30_encoding.md R94, 20_memory.md R62). -/
def OneExchange (i : Instr) (s : State) (tx : List Byte) : Prop :=
  ∃ t o, exec i s = .next t ∧ AnswerAt s 0 tx.length o ∧ t.trace = s.trace ++ [.xfer tx o] ∧
    t.responses = s.responses ∧ SameRegisters s t

/-! ## Packets -/

/-- cmd and cf bytes BUILD and SEND accept (30_encoding.md R105). -/
def LegalOperands (cmd cf : Byte) : Prop := (cmd = 0x03 ∨ cmd = 0x05 ∨ cmd = 0x07) ∧ (cf = 0x00 ∨ cf = 0x01)

/-- The FAULT bit of the first unwritten register a packet needs, in the order ADDR, SEQ, COLOR (60_exceptions.md
R324). -/
def firstUnwritten (s : State) (cf : Byte) : Option Byte :=
  if !s.addrW then some 0x01
  else if !s.seqW then some 0x02
  else if cf = 0x00 ∧ s.colorW = false then some 0x04
  else none

/-- The 15 bytes of the packet for the session of s (30_encoding.md R98). -/
def sessionPacket (s : State) (cmd cf : Byte) (c : Color) : List Byte :=
  [0x0E, s.addr.a0, s.addr.a1, s.addr.a2, s.addr.a3, s.addr.a4, s.addr.a5, s.addr.a6, s.addr.a7, s.addr.a8, cmd, s.seq] ++
    (if cf = 0x01 then [c.h, c.s, c.i] else [s.color.h, s.color.s, s.color.i])

/-- The operands of SEND and of its three pseudo-operations (30_encoding.md R106). -/
def sendOperands : Instr → Option (Byte × Byte × Color)
  | .send cmd cf c => some (cmd, cf, c)
  | .turnOn => some (0x05, 0x00, ⟨0, 0, 0⟩)
  | .turnOff => some (0x07, 0x00, ⟨0, 0, 0⟩)
  | .setColor c => some (0x03, 0x01, c)
  | _ => none

/-! ## Colours -/

/-- x is the binary64 number nearest q, at a half the one with an even significand, for q of the normal range: with
2^e ≤ q < 2^(e+1) the binary64 numbers there are the multiples of 2^(e-52) (43_color.md R272). -/
def NearestBinary64 (q x : ℚ) : Prop :=
  (q = 0 ∧ x = 0) ∨
  ∃ (e M : ℤ), -1022 ≤ e ∧ e ≤ 1022 ∧ (2 : ℚ) ^ e ≤ q ∧ q < 2 ^ (e + 1) ∧ x = M * 2 ^ (e - 52) ∧
    |q - x| ≤ 2 ^ (e - 53) ∧ (|q - x| = 2 ^ (e - 53) → M % 2 = 0)

/-! ## The set-up HOST owes -/

/-- Session traffic: a lamp packet goes over the link (60_exceptions.md R335, log 35). -/
def sessionTraffic (i : Instr) : Bool := (sendOperands i).isSome || decide (i = .recvPacket)

/-- The cf byte of an operation that makes a packet of the session registers: BUILD and the sends (10_state.md R27). -/
def packetCf : Instr → Option Byte
  | .build _ cf _ => some cf
  | i => (sendOperands i).map fun o => o.2.1

/-- HOST keeps its duties of bring-up and session set-up when it issues c at s: `INIT` has returned OK before session
traffic, and the registers a packet needs are written (60_exceptions.md R335). -/
def setUpKept (c : List Byte) (s : State) : Bool :=
  match decode c with
  | .instr i _ =>
    (!sessionTraffic i || decide (s.buPhase = .ready)) &&
      (match packetCf i with
       | some cf => (firstUnwritten s cf).isNone
       | none => true)
  | .unassignedCode _ _ => true
  | .incomplete => false

/-- A `HostRun` in which HOST keeps every duty of 60_exceptions.md R335, those of set-up too. -/
def DutifulRun : List (List Byte) → State → State → Prop
  | [], s, t => AwaitsHost s ∧ t = s
  | c :: cs, s, u => setUpKept c s = true ∧ ∃ t, Answered c s t ∧ DutifulRun cs t u

/-! ## Invariants -/

/-- An event of the link the block may make: a wire form of R94, answered with as many bytes as were sent. -/
def EventOk (p : Profile) : Event → Prop
  | .xinit _ => True
  | .xfer tx o => (decodeWire p tx).isSome = true ∧ AnswersBytes tx.length o

/-- The invariant of the registers and of what was observed. -/
structure Inv (s : State) : Prop where
  /-- The profile meets 00_scope.md R8. -/
  profileOk : profileWf s.profile = true
  /-- FAULT[7:3] reads 0 (10_state.md R28). -/
  faultReserved : s.fault &&& 0xF8 = 0x00
  /-- CTRL[7:1] reads 0 (10_state.md R30). -/
  ctrlReserved : s.ctrl &&& 0xFE = 0x00
  /-- Between two steps BU_PHASE is never XPORT_INIT: that phase is over when its XInit has answered (log 11). -/
  notXportInit : s.buPhase ≠ .xportInit
  /-- CFG_IDX names an entry in phase CONFIG (10_state.md R29). -/
  cfgInRange : s.buPhase = .config → s.cfgIdx < 33
  /-- SETTLE_IDX names a settle strobe in phase SETTLE (10_state.md R29). -/
  settleInRange : s.buPhase = .settle → s.settleIdx < 4
  /-- A bounded poll has not reached its bound (41_bringup.md R173, R174). -/
  pollInRange : s.buPhase = .readyPoll ∨ s.buPhase = .idPoll → s.pollLimit ≠ 0 → s.pollCnt < s.pollLimit.toNat
  /-- Every response begins with one of the codes 0x00 to 0x0C (60_exceptions.md R320). -/
  responsesOk : ∀ r ∈ s.responses, ∃ code data, r = code :: data ∧ code.toNat ≤ 0x0C
  /-- The block forms no transaction but those of 30_encoding.md R94. -/
  traceOk : ∀ e ∈ s.trace, EventOk s.profile e

/-! ## The order of bring-up -/

/-- The transactions of one INIT up to the point a state stands at, with n1 + 1 ready polls and n2 + 1 identity reads in
the loops that are over (41_bringup.md R170 to R177). -/
def bringUpFrames (s : State) (n1 n2 : Nat) : List (List Byte) :=
  let reset := [[s.profile.strobes.reset]]
  let polls := fun n => List.replicate n [0x00]
  let reads := fun n => List.replicate n [0xC0 ||| s.profile.idRegAddr.setWidth 8, 0x00]
  let writes := fun n => (s.profile.configTable.take n).map fun e => [e.1.setWidth 8, e.2]
  let settles := fun n =>
    ([s.profile.strobes.idle, s.profile.strobes.idle, s.profile.strobes.powerDown, s.profile.strobes.idle].take n).map
      fun b => [b]
  match s.buPhase with
  | .reset => []
  | .readyPoll => reset ++ polls s.pollCnt
  | .idPoll => reset ++ polls (n1 + 1) ++ reads s.pollCnt
  | .config => reset ++ polls (n1 + 1) ++ reads (n2 + 1) ++ writes s.cfgIdx
  | .settle => reset ++ polls (n1 + 1) ++ reads (n2 + 1) ++ writes 33 ++ settles s.settleIdx
  | .ready => reset ++ polls (n1 + 1) ++ reads (n2 + 1) ++ writes 33 ++ settles 4
  | .uninit => []
  | .xportInit => []
  | .failed => []

/-- TRACE ends with one successful XInit and then exactly the transactions of the INIT that stands at s, all answered;
from phase CONFIG on, the last identity read was answered ready and with the expected identity (41_bringup.md R175). -/
def EndsWithBringUp (s : State) : Prop :=
  ∃ before n1 n2 rxs, rxs.length = (bringUpFrames s n1 n2).length ∧
    s.trace = before ++ .xinit .ok :: List.zipWith (fun tx rx => Event.xfer tx (.ok rx)) (bringUpFrames s n1 n2) rxs ∧
    (s.buPhase = .config ∨ s.buPhase = .settle ∨ s.buPhase = .ready →
      ∃ sb : Byte, rxs[n1 + n2 + 2]? = some [sb, 0x80] ∧ sb.getLsbD 7 = false)

/-- While an INIT runs, its transactions stand in TRACE in the order of 41_bringup.md R180. -/
def BringUpOrdered (s : State) : Prop := s.busy = true → EndsWithBringUp s

/-! ## Configuration before strobes -/

/-- The strobe code an event sends, if it is a strobe (30_encoding.md R92). -/
def strobeSent (p : Profile) : Event → Option Byte
  | .xinit _ => none
  | .xfer [] _ => none
  | .xfer [code] _ => if code ∈ profileCodes p then some code else none
  | .xfer (_ :: _ :: _) _ => none

/-- Whether an event is the answered write of entry k of the configuration table (41_bringup.md R176). -/
def writesEntry (p : Profile) (k : Nat) : Event → Bool
  | .xinit _ => false
  | .xfer _ .fail => false
  | .xfer tx (.ok _) => decide (p.configTable[k]?.map (fun e => [e.1.setWidth 8, e.2]) = some tx)

/-- How many entries of the table have been applied in its order since the last RESET strobe, after one more event. -/
def entriesAfter (p : Profile) (k : Nat) (e : Event) : Nat :=
  if strobeSent p e = some p.strobes.reset then 0 else if writesEntry p k e then k + 1 else k

/-- The same after a list of events. -/
def entriesApplied (p : Profile) (k : Nat) (es : List Event) : Nat := es.foldl (entriesAfter p) k

/-- Whether a strobe, if the event is one other than RESET, comes after the whole table. -/
def strobeAfterTable (p : Profile) (k : Nat) (e : Event) : Bool :=
  decide (strobeSent p e = none) || decide (strobeSent p e = some p.strobes.reset) || decide (p.configTable.length ≤ k)

/-- The same for each event of a list, k entries having been applied before it. -/
def tableBeforeStrobesFrom (p : Profile) : Nat → List Event → Bool
  | _, [] => true
  | k, e :: es => strobeAfterTable p k e && tableBeforeStrobesFrom p (entriesAfter p k e) es

/-- The source's invariant as TRACE shows it: every strobe other than RESET came after the whole table had been
applied, in its order, since the last RESET (70_reset_and_hazards.md R353). It does not ask who applied the table:
what HOST owes is `NoBreakingStrobe`. -/
def tableBeforeStrobes (s : State) : Bool := tableBeforeStrobesFrom s.profile 0 s.trace

/-- What an observer of a run remembers for R353. -/
structure StrobeWatch where
  /-- An `INIT` has returned OK, and since the last that did, none of R353 (b) and (c), and no block reset, has come. -/
  configured : Bool
  /-- HOST has issued a strobe that R353 calls breaking. -/
  broken : Bool
deriving DecidableEq, Repr

/-- Before the first `INIT`: R353 (a) holds, and no strobe has been issued. -/
def StrobeWatch.start : StrobeWatch := ⟨false, false⟩

/-- What a step of a running `INIT`, from s to t, does to `configured`: OK sets it, an error at or before phase CONFIG
clears it (R353 (b)), and an error in phase SETTLE, like a step that does not end the `INIT`, leaves it. -/
def configuredByInit (s t : State) (configured : Bool) : Bool :=
  if t.buPhase = .ready then true else if t.buPhase = .failed ∧ s.buPhase ≠ .settle then false else configured

/-- Whether one of the events is HOST's RESET strobe, whatever its answer (R353 (c), log 33), or the failed XInit with
which an `INIT` ends in phase XPORT_INIT (R353 (b)). -/
def undoesConfiguration (p : Profile) (evs : List Event) : Bool :=
  evs.any fun e => decide (strobeSent p e = some p.strobes.reset) || decide (e = .xinit .openFail) ||
    decide (e = .xinit .configFail)

/-- What the step from s to t shows the observer. A block reset is a point before the first `INIT` (R351, log 33). A
strobe that a running `INIT` issues is the block's own. A strobe of any other step is HOST's, by STROBE, FIFO_WRITE or
a send, and it is breaking unless `configured`, which is R353 (a), (b) and (c). -/
def StrobeWatch.next (w : StrobeWatch) (s t : State) : StrobeWatch :=
  if s.resetIn then { w with configured := false }
  else if s.busy then { w with configured := configuredByInit s t w.configured }
  else
    let evs := t.trace.drop s.trace.length
    { configured := w.configured && !undoesConfiguration s.profile evs
      broken := w.broken || (!w.configured && evs.any fun e => (strobeSent s.profile e).isSome) }

/-- What the observer remembers after k steps from s. -/
def StrobeWatch.run : Nat → State → StrobeWatch → StrobeWatch
  | 0, _, w => w
  | k + 1, s, w =>
    match step s with
    | .next t => StrobeWatch.run k t (w.next s t)
    | .fault _ => w
    | .refused _ => w

/-- The premise "no such strobe" that a claim about what the lamp receives takes (R353): HOST issues no breaking
strobe in k steps from s, a state before the first `INIT`. -/
def NoBreakingStrobe (k : Nat) (s : State) : Prop := (StrobeWatch.run k s .start).broken = false

/-- While HOST has issued no breaking strobe, TRACE meets the source's invariant, and where the next strobe would not be
breaking the whole table stands applied. -/
def ConfiguredBeforeStrobes (w : StrobeWatch) (s : State) : Prop :=
  w.broken = false → tableBeforeStrobes s = true ∧
    (w.configured = true → s.busy = false → s.profile.configTable.length ≤ entriesApplied s.profile 0 s.trace)

end Sys2Proof.Safety
end

