-- ==== Sys2Proof/Certificates/Slice0/Obligations.lean ====
section
/-! DEFINITION. The statements for the provers. Each docstring names the rule of spec/ it formalises, and the log entry where it
rests on a choice of the model. -/

section Slice0

open Sys2Proof Sys2Proof.Machine Sys2Proof.Safety

/-- Every host operation code decodes, with its operand bytes, to its operation. R103's table, code by code with its
length, and its last sentence. The operand order is R104's, the byte order R101's. -/
def Obligations.HostCommandFormats : Prop :=
  (∀ rest : List Byte,
    decode (0x01 :: rest) = .instr .init rest ∧
    (∀ a v, decode (0x02 :: a :: v :: rest) = .instr (.setReg a v) rest) ∧
    (∀ a, decode (0x03 :: a :: rest) = .instr (.getReg a) rest) ∧
    (∀ sel, decode (0x04 :: sel :: rest) = .instr (.strobe sel) rest) ∧
    (∀ p : List Byte, p.length ≤ 255 →
      decode (0x05 :: BitVec.ofNat 8 p.length :: (p ++ rest)) = .instr (.fifoWrite p) rest) ∧
    decode (0x06 :: rest) = .instr .fifoRead rest ∧
    (∀ cmd cf h s i, decode (0x10 :: cmd :: cf :: h :: s :: i :: rest) = .instr (.build cmd cf ⟨h, s, i⟩) rest) ∧
    (∀ cmd cf h s i, decode (0x11 :: cmd :: cf :: h :: s :: i :: rest) = .instr (.send cmd cf ⟨h, s, i⟩) rest) ∧
    decode (0x12 :: rest) = .instr .turnOn rest ∧
    decode (0x13 :: rest) = .instr .turnOff rest ∧
    (∀ h s i, decode (0x14 :: h :: s :: i :: rest) = .instr (.setColor ⟨h, s, i⟩) rest) ∧
    (∀ m d0 d1 d2 d3, ∃ d : BitVec 32,
      d.toNat = d0.toNat + 256 * d1.toNat + 65536 * d2.toNat + 16777216 * d3.toNat ∧
      decode (0x15 :: m :: d0 :: d1 :: d2 :: d3 :: rest) = .instr (.learn m d) rest) ∧
    (∀ b : List Byte, b.length ≤ 255 →
      decode (0x16 :: BitVec.ofNat 8 b.length :: (b ++ rest)) = .instr (.parse b) rest) ∧
    decode (0x17 :: rest) = .instr .recvPacket rest ∧
    (∀ r g b, decode (0x20 :: r :: g :: b :: rest) = .instr (.rgbToHsi r g b) rest) ∧
    (∀ a0 a1 a2 a3 a4 a5 a6 a7 a8,
      decode (0x30 :: a0 :: a1 :: a2 :: a3 :: a4 :: a5 :: a6 :: a7 :: a8 :: rest) =
        .instr (.wrAddr ⟨a0, a1, a2, a3, a4, a5, a6, a7, a8⟩) rest) ∧
    decode (0x31 :: rest) = .instr .rdAddr rest ∧
    (∀ v, decode (0x32 :: v :: rest) = .instr (.wrSeq v) rest) ∧
    decode (0x33 :: rest) = .instr .rdSeq rest ∧
    (∀ h s i, decode (0x34 :: h :: s :: i :: rest) = .instr (.wrColor ⟨h, s, i⟩) rest) ∧
    decode (0x35 :: rest) = .instr .rdColor rest ∧
    (∀ v, decode (0x36 :: v :: rest) = .instr (.wrCtrl v) rest) ∧
    decode (0x37 :: rest) = .instr .rdCtrl rest ∧
    (∀ l0 l1 l2 l3, ∃ l : BitVec 32,
      l.toNat = l0.toNat + 256 * l1.toNat + 65536 * l2.toNat + 16777216 * l3.toNat ∧
      decode (0x38 :: l0 :: l1 :: l2 :: l3 :: rest) = .instr (.wrPollLimit l) rest) ∧
    decode (0x39 :: rest) = .instr .rdPollLimit rest ∧
    decode (0x3A :: rest) = .instr .rdFault rest ∧
    decode (0x3B :: rest) = .instr .rdBustate rest) ∧
  ∀ (b : Byte) (rest : List Byte),
    b ∉ ([0x01, 0x02, 0x03, 0x04, 0x05, 0x06, 0x10, 0x11, 0x12, 0x13, 0x14, 0x15, 0x16, 0x17, 0x20] ++
      [0x30, 0x31, 0x32, 0x33, 0x34, 0x35, 0x36, 0x37, 0x38, 0x39, 0x3A, 0x3B] : List Byte) →
    ∃ rest', decode (b :: rest) = .unassignedCode b rest'

/-- Host commands and wire transactions the spec writes out decode to what they stand for. Words written out from the
spec's encodings and vectors; the reference codes are the reference profile's (log 1). -/
def Obligations.DecodeSpecWords : Prop :=
  decode [0x02, 0x0B, 0x0A] = .instr (.setReg 0x0B 0x0A) [] ∧
  decode [0x05, 0x02, 0x01, 0x02] = .instr (.fifoWrite [0x01, 0x02]) [] ∧
  decode [0x10, 0x03, 0x01, 0x01, 0x02, 0x03] = .instr (.build 0x03 0x01 ⟨0x01, 0x02, 0x03⟩) [] ∧
  decode [0x15, 0x04, 0xE8, 0x03, 0x00, 0x00] = .instr (.learn 0x04 0x000003E8) [] ∧
  decode [0x20, 0xC8, 0x64, 0x32] = .instr (.rgbToHsi 200 100 50) [] ∧
  decode [0x38, 0x78, 0x56, 0x34, 0x12] = .instr (.wrPollLimit 0x12345678) [] ∧
  decodeWire Profile.reference [0x0B, 0x0A] = some (.wireSingleWrite 0x0B 0x0A) ∧
  decodeWire Profile.reference [0x8B, 0x00] = some (.wireSingleRead 0x0B) ∧
  decodeWire Profile.reference [0x7F, 0x01, 0x02] = some (.wireBurstWrite 0x3F [0x01, 0x02]) ∧
  decodeWire Profile.reference [0xF0, 0x00] = some (.wireBurstRead 0x30 1) ∧
  decodeWire Profile.reference [0x00] = some .wireStatusPoll ∧
  decodeWire Profile.reference [0x35] = some .wireStrobeTx ∧
  decodeWire Profile.reference [0x3B] = some .wireStrobeFlushTx

/-- Decoding the encoding of a host operation gives it back, with the bytes after it. No operand bit of a host command
is dropped (R101, R104). A selector, cmd or cf byte may have any value. -/
def Obligations.HostDecodeEncode : Prop :=
  ∀ (p : Profile) (i : Instr) (rest : List Byte), i.isWire = false →
    (∀ l, i = .fifoWrite l ∨ i = .parse l → l.length ≤ 255) →
    decode (encode p i ++ rest) = .instr i rest

/-- A decoded host command is the encoding of what it decoded to. The other direction: no two byte strings are the
same command (R103, R104). -/
def Obligations.HostEncodeDecode : Prop :=
  ∀ (p : Profile) (bs rest : List Byte) (i : Instr), decode bs = .instr i rest →
    i.isWire = false ∧ bs = encode p i ++ rest

/-- The decoder waits exactly while bytes of a command are missing. R101: a command is decoded only when all its bytes
are present, and while it is incomplete the block waits. -/
def Obligations.DecodeWaitsOnlyForMissingBytes : Prop :=
  ∀ bs : List Byte,
    (∀ i rest more, decode bs = .instr i rest → decode (bs ++ more) = .instr i (rest ++ more)) ∧
    (decode bs = .incomplete →
      ∃ i more, more.length ≤ 256 ∧ i.isWire = false ∧ decode (bs ++ more) = .instr i [])

/-- Decoding the bytes of a wire form gives the form back. The wire transactions of R94 are told apart by length and
header in every legal profile. -/
def Obligations.WireDecodeEncode : Prop :=
  ∀ (p : Profile) (i : Instr), profileWf p = true → i.isWire = true → encode p i ≠ [] →
    decodeWire p (encode p i) = some i

/-- A decoded wire transaction is the bytes of what it decoded to. The other direction of R94's table. -/
def Obligations.WireEncodeDecode : Prop :=
  ∀ (p : Profile) (bs : List Byte) (i : Instr), decodeWire p bs = some i → i.isWire = true ∧ encode p i = bs

/-- The access header byte is RW or MODE or address, and its fields read back. R90's formula and its bit table. The
address is a 6-bit value by type. -/
def Obligations.HeaderByteFields : Prop :=
  ∀ a : RegAddr,
    opc .read .single a = 0x80 ||| a.setWidth 8 ∧
    opc .write .single a = 0x00 ||| a.setWidth 8 ∧
    opc .read .burst a = 0x80 ||| 0x40 ||| a.setWidth 8 ∧
    opc .write .burst a = 0x00 ||| 0x40 ||| a.setWidth 8 ∧
    ∀ (rw : Rw) (m : AccessMode),
      ((opc rw m a).getLsbD 7 = true ↔ rw = .read) ∧
      ((opc rw m a).getLsbD 6 = true ↔ m = .burst) ∧
      (opc rw m a).setWidth 6 = a

/-- The status byte carries not-ready in bit 7, the chip state in 6:4, the FIFO count in 3:0. R95's fields and R96's
table. -/
def Obligations.StatusByteFields : Prop :=
  (∀ sb : Byte, statusNotReady sb = sb.getLsbD 7 ∧ (statusFifoCount sb).toNat = sb.toNat % 16 ∧
    (chipStateCode (stateOf sb)).toNat = sb.toNat / 16 % 8) ∧
  chipStateCode .idle = 0 ∧ chipStateCode .rx = 1 ∧ chipStateCode .tx = 2 ∧ chipStateCode .fsTxOn = 3 ∧
  chipStateCode .calibrate = 4 ∧ chipStateCode .settling = 5 ∧ chipStateCode .rxFifoOverflow = 6 ∧
  chipStateCode .txFifoUnderflow = 7

/-- Each wire form completes as one exchange of its own bytes and changes no register. The completion, the effect and
the frame of the wire forms, their bytes written out from R91 to R93. That a wire form gives no response is the
model's reading (log 13). -/
def Obligations.WireFormsAreOneExchange : Prop :=
  ∀ s : State,
    (∀ a v, OneExchange (.wireSingleWrite a v) s [a.setWidth 8, v]) ∧
    (∀ a, OneExchange (.wireSingleRead a) s [0x80 ||| a.setWidth 8, 0x00]) ∧
    (∀ a p, OneExchange (.wireBurstWrite a p) s ((0x40 ||| a.setWidth 8) :: p)) ∧
    (∀ a n, OneExchange (.wireBurstRead a n) s ((0xC0 ||| a.setWidth 8) :: List.replicate n 0x00)) ∧
    OneExchange .wireStatusPoll s [0x00] ∧
    OneExchange .wireStrobeReset s [s.profile.strobes.reset] ∧
    OneExchange .wireStrobeFsTxOn s [s.profile.strobes.fsTxOn] ∧
    OneExchange .wireStrobeXtalOff s [s.profile.strobes.xtalOff] ∧
    OneExchange .wireStrobeCalibrate s [s.profile.strobes.calibrate] ∧
    OneExchange .wireStrobeRx s [s.profile.strobes.rx] ∧
    OneExchange .wireStrobeTx s [s.profile.strobes.tx] ∧
    OneExchange .wireStrobeIdle s [s.profile.strobes.idle] ∧
    OneExchange .wireStrobePowerDown s [s.profile.strobes.powerDown] ∧
    (∀ code, s.profile.flushRx = some code → OneExchange .wireStrobeFlushRx s [code]) ∧
    (∀ code, s.profile.flushTx = some code → OneExchange .wireStrobeFlushTx s [code])

/-- A flush wire form is refused where the profile has no code for it. The model's choice (log 14): R92 has a flush
strobe only when its code is present. -/
def Obligations.FlushFormWithoutCodeRefused : Prop :=
  ∀ s : State,
    (s.profile.flushRx = none → exec .wireStrobeFlushRx s = .refused .absentStrobeCode) ∧
    (s.profile.flushTx = none → exec .wireStrobeFlushTx s = .refused .absentStrobeCode)

/-- Every exchange may be answered fail or any bytes of its length, whatever came before. R62: the model admits every
rx value and the fail outcome on every exchange. -/
def Obligations.ExchangeAdmitsEveryAnswer : Prop :=
  ∀ (s : State) (tx : List Byte) (o : XferOutcome), AnswersBytes tx.length o →
    ∃ (orc : Oracle) (t : State), xfer tx { s with oracle := orc } = (o, t) ∧
      t.trace = s.trace ++ [.xfer tx o] ∧ t.responses = s.responses ∧ SameRegisters s t

/-- SET_REG: address check, one write exchange, OK or TRANSFER_FAIL, no register changed. R134 with its errors and
corner cases; the header is the address itself. -/
def Obligations.SetRegWritesOneRegister : Prop :=
  ∀ (s : State) (a v : Byte) (rest : List Byte),
    decode (0x02 :: a :: v :: rest) = .instr (.setReg a v) rest ∧
    (0x40 ≤ a.toNat → exec (.setReg a v) s = .next { s with responses := s.responses ++ [[0x08]] }) ∧
    (a.toNat < 0x40 → ∃ t o, exec (.setReg a v) s = .next t ∧ AnswerAt s 0 2 o ∧
      t.trace = s.trace ++ [.xfer [a, v] o] ∧
      t.responses = s.responses ++ [[transferCode o]] ∧ SameRegisters s t)

/-- GET_REG: address check, one read exchange, the second received byte returned. R135 with its errors and corner
cases. -/
def Obligations.GetRegReturnsSecondByte : Prop :=
  ∀ (s : State) (a : Byte) (rest : List Byte),
    decode (0x03 :: a :: rest) = .instr (.getReg a) rest ∧
    (0x40 ≤ a.toNat → exec (.getReg a) s = .next { s with responses := s.responses ++ [[0x08]] }) ∧
    (a.toNat < 0x40 → ∃ t o, exec (.getReg a) s = .next t ∧ AnswerAt s 0 2 o ∧
      t.trace = s.trace ++ [.xfer [0x80 ||| a, 0x00] o] ∧ SameRegisters s t ∧
      ((o = .fail ∧ t.responses = s.responses ++ [[0x03]]) ∨
       ∃ echo v, o = .ok [echo, v] ∧ t.responses = s.responses ++ [[0x00, v]]))

/-- STROBE: the selector picks the profile's code, sent raw as one byte; other selectors illegal. R136 with R108's
selector numbers. BU_PHASE is among the registers that do not change. -/
def Obligations.StrobeSendsItsCode : Prop :=
  ∀ (s : State) (sel : Byte) (rest : List Byte),
    let codes : List (Option Byte) :=
      [some s.profile.strobes.reset, some s.profile.strobes.fsTxOn, some s.profile.strobes.xtalOff,
        some s.profile.strobes.calibrate, some s.profile.strobes.rx, some s.profile.strobes.tx,
        some s.profile.strobes.idle, some s.profile.strobes.powerDown, s.profile.flushRx, s.profile.flushTx]
    decode (0x04 :: sel :: rest) = .instr (.strobe sel) rest ∧
    (∀ code, codes[sel.toNat]? = some (some code) →
      ∃ t o, exec (.strobe sel) s = .next t ∧ AnswerAt s 0 1 o ∧ t.trace = s.trace ++ [.xfer [code] o] ∧
        t.responses = s.responses ++ [[transferCode o]] ∧ SameRegisters s t) ∧
    ((∀ code, codes[sel.toNat]? ≠ some (some code)) →
      exec (.strobe sel) s = .next { s with responses := s.responses ++ [[0x0B]] })

/-- FIFO_WRITE: allocate, write the payload, then the TX strobe; each failure ends it. R137; `FifoWriteRun`
(Safety.lean) writes out its runs: the exchanges, the answers and the result code of each. -/
def Obligations.FifoWriteThenStrobe : Prop :=
  ∀ (s : State) (p rest : List Byte),
    (p.length ≤ 255 → decode (0x05 :: BitVec.ofNat 8 p.length :: (p ++ rest)) = .instr (.fifoWrite p) rest) ∧
    ∃ t code evs, exec (.fifoWrite p) s = .next t ∧ FifoWriteRun s p code evs ∧
      t.trace = s.trace ++ evs ∧ t.responses = s.responses ++ [[code]] ∧ SameRegisters s t

/-- FIFO_READ: poll, take the count, read that many bytes, return count and bytes. R138; `FifoReadRun` (Safety.lean)
writes out its runs. -/
def Obligations.FifoReadReturnsCountedBytes : Prop :=
  ∀ (s : State) (rest : List Byte),
    decode (0x06 :: rest) = .instr .fifoRead rest ∧
    ∃ t r evs, exec .fifoRead s = .next t ∧ FifoReadRun s r evs ∧ t.trace = s.trace ++ evs ∧ SameRegisters s t ∧
      t.responses = s.responses ++
        [match r with
         | .error code => [code]
         | .ok p => 0x00 :: BitVec.ofNat 8 p.length :: p]

/-- INIT initialises the Transport first; a failure ends it in FAILED with its code. R171 and R179. That the steps
after it run the rest of INIT, one exchange each, is the model's choice (log 10, log 11). -/
def Obligations.InitStartsTransport : Prop :=
  ∀ s : State, ∃ t o, exec .init s = .next t ∧ (∀ x, s.oracle.xinit[0]? = some x → o = x) ∧
    t.trace = s.trace ++ [.xinit o] ∧ SameButBringUp s t ∧
    (o = .ok → t.buPhase = .reset ∧ t.responses = s.responses) ∧
    (o = .openFail → t.buPhase = .failed ∧ t.responses = s.responses ++ [[0x01]]) ∧
    (o = .configFail → t.buPhase = .failed ∧ t.responses = s.responses ++ [[0x02]])

/-- INIT with good answers makes exactly its exchanges in order and ends READY with OK. R170 to R178 as one run. That
INIT is several steps, one exchange each, is the model's choice (log 10). -/
def Obligations.InitRunsToReady : Prop :=
  ∀ (s : State) (x : Byte) (polls : List Byte) (p : Byte) (reads : List (Byte × Byte)) (sb : Byte)
    (writes settles : List (List Byte)) (tape : List XferOutcome),
    profileWf s.profile = true → s.resetIn = false → s.oracle.xinit[0]? = some .ok →
    (∀ q ∈ polls, q.getLsbD 7 = true) → p.getLsbD 7 = false →
    (∀ q ∈ reads, q.1.getLsbD 7 = true) → sb.getLsbD 7 = false →
    writes.length = 33 → (∀ w ∈ writes, w.length = 2) → settles.length = 4 → (∀ w ∈ settles, w.length = 1) →
    (s.pollLimit = 0 ∨ (polls.length < s.pollLimit.toNat ∧ reads.length < s.pollLimit.toNat)) →
    let answers := [[x]] ++ polls.map (fun q => [q]) ++ [[p]] ++ reads.map (fun q => [q.1, q.2]) ++ [[sb, 0x80]] ++
      writes ++ settles
    let frames := [[s.profile.strobes.reset]] ++ List.replicate (polls.length + 1) [0x00] ++
      List.replicate (reads.length + 1) [0xC0 ||| s.profile.idRegAddr.setWidth 8, 0x00] ++
      s.profile.configTable.map (fun e => [e.1.setWidth 8, e.2]) ++
      [[s.profile.strobes.idle], [s.profile.strobes.idle], [s.profile.strobes.powerDown], [s.profile.strobes.idle]]
    s.oracle.xfer = answers.map .ok ++ tape →
    ∃ t0 t, exec .init s = .next t0 ∧ Host.Core.run Sys2Proof.core answers.length t0 = .next t ∧
      t.buPhase = .ready ∧ t.responses = s.responses ++ [[0x00]] ∧
      t.trace = s.trace ++ .xinit .ok :: List.zipWith (fun tx rx => Event.xfer tx (.ok rx)) frames answers ∧
      SameButBringUp s t

/-- A failed exchange of a running INIT ends it in FAILED with TRANSFER_FAIL, no retry. R179: FAILED is written, the
exchanges made stay in TRACE, nothing is retried. Two choices of the model stand in it: a step of a running INIT is
one exchange (log 10), and BU_PHASE, with its counters, names the form due in it (log 11). -/
def Obligations.InitExchangeFailureEnds : Prop :=
  ∀ (s : State) (i : Instr), profileWf s.profile = true → s.resetIn = false → bringUpForm s = some i →
    s.oracle.xfer[0]? = some .fail →
    ∃ t, step s = .next t ∧ t.buPhase = .failed ∧ t.trace = s.trace ++ [.xfer (encode s.profile i) .fail] ∧
      t.responses = s.responses ++ [[0x03]] ∧ SameButBringUp s t

/-- A ready poll: ready goes on, not ready polls again below the bound and times out at it. R173. A ready status on
the N-th poll is success whatever the bound. The model's choices: one poll a step (log 10), and BU_PHASE = ID_POLL
with POLL_CNT 0, or FAILED, already at the end of the step whose poll decides it (log 11). -/
def Obligations.ReadyPollOutcomes : Prop :=
  ∀ (s : State) (sb : Byte), profileWf s.profile = true → s.resetIn = false → s.buPhase = .readyPoll →
    s.oracle.xfer[0]? = some (.ok [sb]) →
    ∃ t, step s = .next t ∧ t.trace = s.trace ++ [.xfer [0x00] (.ok [sb])] ∧ SameButBringUp s t ∧
      (sb.getLsbD 7 = false → t.buPhase = .idPoll ∧ t.pollCnt = 0 ∧ t.responses = s.responses) ∧
      (sb.getLsbD 7 = true → s.pollLimit ≠ 0 ∧ s.pollLimit.toNat ≤ s.pollCnt + 1 →
        t.buPhase = .failed ∧ t.responses = s.responses ++ [[0x07]]) ∧
      (sb.getLsbD 7 = true → s.pollLimit = 0 ∨ s.pollCnt + 1 < s.pollLimit.toNat →
        t.buPhase = .readyPoll ∧ t.pollCnt = s.pollCnt + 1 ∧ t.responses = s.responses)

/-- An identity read: the ready exchange's value is compared with 0x80; not ready polls on or times out. R174 and
R175: values received while not ready are discarded. The model's choices: one read a step (log 10), and BU_PHASE =
CONFIG with CFG_IDX 0 already at the end of the identity read's step (log 11). -/
def Obligations.IdentityReadOutcomes : Prop :=
  ∀ (s : State) (sb v : Byte), profileWf s.profile = true → s.resetIn = false → s.buPhase = .idPoll →
    s.oracle.xfer[0]? = some (.ok [sb, v]) →
    ∃ t, step s = .next t ∧
      t.trace = s.trace ++ [.xfer [0xC0 ||| s.profile.idRegAddr.setWidth 8, 0x00] (.ok [sb, v])] ∧ SameButBringUp s t ∧
      (sb.getLsbD 7 = false → v = 0x80 → t.buPhase = .config ∧ t.cfgIdx = 0 ∧ t.responses = s.responses) ∧
      (sb.getLsbD 7 = false → v ≠ 0x80 → t.buPhase = .failed ∧ t.responses = s.responses ++ [[0x04, v]]) ∧
      (sb.getLsbD 7 = true → s.pollLimit ≠ 0 ∧ s.pollLimit.toNat ≤ s.pollCnt + 1 →
        t.buPhase = .failed ∧ t.responses = s.responses ++ [[0x07]]) ∧
      (sb.getLsbD 7 = true → s.pollLimit = 0 ∨ s.pollCnt + 1 < s.pollLimit.toNat →
        t.buPhase = .idPoll ∧ t.pollCnt = s.pollCnt + 1 ∧ t.responses = s.responses)

/-- With POLL_LIMIT 0 and a chip that never reports ready, either poll loop of INIT runs for any number of steps. The
hang of R354, as long as one likes, in both of INIT's poll loops. That k steps are k polls is the model's choice (log
10), and so is that BU_PHASE names the loop between two steps (log 11). -/
def Obligations.UnboundedPollGoesOnForever : Prop :=
  ∀ (s : State) (tape : List XferOutcome), profileWf s.profile = true → s.resetIn = false → s.pollLimit = 0 →
    (∀ sbs : List Byte, s.buPhase = .readyPoll → (∀ sb ∈ sbs, sb.getLsbD 7 = true) →
      s.oracle.xfer = sbs.map (fun sb => .ok [sb]) ++ tape →
      ∃ t, Host.Core.run Sys2Proof.core sbs.length s = .next t ∧ t.buPhase = .readyPoll ∧
        t.pollCnt = s.pollCnt + sbs.length ∧ t.responses = s.responses ∧
        t.trace = s.trace ++ sbs.map (fun sb => .xfer [0x00] (.ok [sb])) ∧ SameButBringUp s t) ∧
    (∀ reads : List (Byte × Byte), s.buPhase = .idPoll → (∀ q ∈ reads, q.1.getLsbD 7 = true) →
      s.oracle.xfer = reads.map (fun q => .ok [q.1, q.2]) ++ tape →
      ∃ t, Host.Core.run Sys2Proof.core reads.length s = .next t ∧ t.buPhase = .idPoll ∧
        t.pollCnt = s.pollCnt + reads.length ∧ t.responses = s.responses ∧
        t.trace = s.trace ++
          reads.map (fun q => .xfer [0xC0 ||| s.profile.idRegAddr.setWidth 8, 0x00] (.ok [q.1, q.2])) ∧
        SameButBringUp s t)

/-- With POLL_LIMIT = N > 0 every INIT ends within 2N + 38 steps after its first, with one response. R354: a program
that must terminate sets POLL_LIMIT; 1 + N + N + 33 + 4 exchanges at most. One a step is the model's choice (log 10).
-/
def Obligations.BoundedInitEnds : Prop :=
  ∀ s : State, profileWf s.profile = true → s.resetIn = false → s.pollLimit ≠ 0 →
    ∃ t0 k t, exec .init s = .next t0 ∧ k ≤ 2 * s.pollLimit.toNat + 38 ∧
      Host.Core.run Sys2Proof.core k t0 = .next t ∧ (t.buPhase = .ready ∨ t.buPhase = .failed) ∧
      ∃ code data, t.responses = s.responses ++ [code :: data]

/-- Each step of a running INIT is one wire form and touches only bring-up registers. How the wire forms reach a run
through INIT. That a step is one exchange is the model's choice (log 10), and so is that BU_PHASE, CFG_IDX and
SETTLE_IDX name the form due between two steps, never XPORT_INIT (log 11). -/
def Obligations.RunningInitPerformsOneWireForm : Prop :=
  ∀ s : State,
    (Inv s → s.busy = true → ∃ i, bringUpForm s = some i) ∧
    ∀ i : Instr, profileWf s.profile = true → s.resetIn = false → bringUpForm s = some i →
      ∃ t u, step s = .next t ∧ exec i s = .next u ∧ t.trace = u.trace ∧ t.oracle = u.oracle ∧ SameButBringUp s t

/-- While an INIT runs, its exchanges stand in TRACE in the order of the phases. R180 (1) to (3), over every state
that meets the invariant. Which exchanges stand behind each BU_PHASE, CFG_IDX, SETTLE_IDX and POLL_CNT between two
steps is the model's choice: the phase names the exchange that comes next, so RESET means not yet sent (log 11), and a
step makes one exchange (log 10). -/
def Obligations.BringUpOrderKept : Prop :=
  ∀ s t : State, BringUpOrdered s → step s = .next t → BringUpOrdered t

/-- INIT answers OK only after the whole bring-up sequence, the identity verified. R175's property: INIT returns
success only after identity verification passes. That INIT runs as several steps, one exchange each, is the model's
choice (log 10), and so is the reading of BU_PHASE between them in the premise BringUpOrdered (log 11). -/
def Obligations.InitOkMadeWholeSequence : Prop :=
  ∀ s t : State, BringUpOrdered s → s.busy = true → step s = .next t →
    (t.responses = s.responses ++ [[0x00]] → t.buPhase = .ready ∧ EndsWithBringUp t) ∧
    (t.buPhase = .ready → t.responses = s.responses ++ [[0x00]] ∧ EndsWithBringUp t)

/-- No strobe but RESET comes before the whole table unless HOST breaks R353: a running INIT never does. R353: inside
INIT the block guarantees that the table is applied, in its order, before any strobe post-reset; outside INIT it is
HOST's duty, cases (a) to (c) (Safety.StrobeWatch). That a block reset counts as before the first INIT is log 33; the
steps of INIT and BU_PHASE between them are log 10 and log 11. -/
def Obligations.InitConfiguresBeforeStrobes : Prop :=
  (∀ (w : StrobeWatch) (s t : State), BringUpOrdered s → ConfiguredBeforeStrobes w s → step s = .next t →
    ConfiguredBeforeStrobes (w.next s t) t ∧ (s.busy = true → (w.next s t).broken = w.broken)) ∧
  ∀ (k : ℕ) (s t : State), s.busy = false → s.trace = [] → NoBreakingStrobe k s →
    Host.Core.run Sys2Proof.core k s = .next t → tableBeforeStrobes t = true

/-- BUILD returns the 15-byte packet of the session, faults on the first unwritten register, refuses bad bytes. R212,
with R210's layout (`sessionPacket`) and R211's choice of colour. SEQ and TRACE are not touched. -/
def Obligations.BuildReturnsPacket : Prop :=
  ∀ (s : State) (cmd cf : Byte) (c : Color) (rest : List Byte),
    decode (0x10 :: cmd :: cf :: c.h :: c.s :: c.i :: rest) = .instr (.build cmd cf c) rest ∧
    (¬ LegalOperands cmd cf → exec (.build cmd cf c) s = .next { s with responses := s.responses ++ [[0x0B]] }) ∧
    (LegalOperands cmd cf → ∀ bit, firstUnwritten s cf = some bit →
      exec (.build cmd cf c) s = .next { s with fault := s.fault ||| bit, responses := s.responses ++ [[0x0C]] }) ∧
    (LegalOperands cmd cf → firstUnwritten s cf = none →
      exec (.build cmd cf c) s = .next { s with responses := s.responses ++ [0x00 :: sessionPacket s cmd cf c] })

/-- A send with bad operands answers ILLEGAL_COMMAND, with an unwritten session FAULT, and does no more. R105 (3) and
(4) before the FAULT checks; R324: only the first applicable bit is set. -/
def Obligations.SendRefusedBeforeExchange : Prop :=
  ∀ (s : State) (i : Instr) (cmd cf : Byte) (c : Color), sendOperands i = some (cmd, cf, c) →
    (¬ LegalOperands cmd cf → exec i s = .next { s with responses := s.responses ++ [[0x0B]] }) ∧
    (LegalOperands cmd cf → ∀ bit, firstUnwritten s cf = some bit →
      exec i s = .next { s with fault := s.fault ||| bit, responses := s.responses ++ [[0x0C]] })

/-- A send writes the session's packet by FIFO_WRITE and then advances SEQ as the mode says. R214 and R215 with the
three pseudo-operations (`sendOperands`, R106). -/
def Obligations.SendWritesPacketAndAdvances : Prop :=
  ∀ (s : State) (i : Instr) (cmd cf : Byte) (c : Color), sendOperands i = some (cmd, cf, c) →
    LegalOperands cmd cf → firstUnwritten s cf = none →
    ∃ t code evs, exec i s = .next t ∧ FifoWriteRun s (sessionPacket s cmd cf c) code evs ∧
      t.trace = s.trace ++ evs ∧ t.responses = s.responses ++ [[code]] ∧
      t = { s with
            seq := if s.ctrl.getLsbD 0 = true ∧ code ≠ 0x00 then s.seq else s.seq + 1
            trace := t.trace, responses := t.responses, oracle := t.oracle }

/-- LEARN always answers NOT_IMPLEMENTED and does nothing else. R222. -/
def Obligations.LearnNotImplemented : Prop :=
  (∀ (m d0 d1 d2 d3 : Byte) (rest : List Byte), ∃ d : BitVec 32,
    d.toNat = d0.toNat + 256 * d1.toNat + 65536 * d2.toNat + 16777216 * d3.toNat ∧
    decode (0x15 :: m :: d0 :: d1 :: d2 :: d3 :: rest) = .instr (.learn m d) rest) ∧
  ∀ (s : State) (m : Byte) (d : BitVec 32),
    exec (.learn m d) s = .next { s with responses := s.responses ++ [[0x06]] }

/-- PARSE checks length, then preamble, then returns the fourteen field bytes raw. R220 with its corner cases; its law
follows with R210's layout. -/
def Obligations.ParseChecksFrame : Prop :=
  ∀ (s : State) (b rest : List Byte),
    (b.length ≤ 255 → decode (0x16 :: BitVec.ofNat 8 b.length :: (b ++ rest)) = .instr (.parse b) rest) ∧
    (b.length ≠ 15 → exec (.parse b) s = .next { s with responses := s.responses ++ [[0x09]] }) ∧
    (∀ x fields, b = x :: fields → fields.length = 14 →
      exec (.parse b) s = .next { s with
        responses := s.responses ++ [if x = 0x0E then 0x00 :: fields else [0x0A]] })

/-- A built packet is 15 bytes with the session's fields, and PARSE returns those fields. R213 for BUILD, and R220's
law. -/
def Obligations.ParseInvertsBuild : Prop :=
  ∀ (s u : State) (cmd cf : Byte) (c : Color), LegalOperands cmd cf → firstUnwritten s cf = none →
    ∃ p, exec (.build cmd cf c) s = .next { s with responses := s.responses ++ [0x00 :: p] } ∧
      p.length = 15 ∧ p[0]? = some 0x0E ∧ (p.drop 1).take 9 = s.addr.bytes ∧ p[10]? = some cmd ∧ p[11]? = some s.seq ∧
      exec (.parse p) u = .next { u with responses := u.responses ++ [0x00 :: p.drop 1] }

/-- RECV_PACKET is FIFO_READ, then the frame checks, errors keeping the bytes read. R221 over R138's runs
(`FifoReadRun`). -/
def Obligations.RecvPacketFramesFifoRead : Prop :=
  ∀ (s : State) (rest : List Byte),
    decode (0x17 :: rest) = .instr .recvPacket rest ∧
    ∃ t r evs, exec .recvPacket s = .next t ∧ FifoReadRun s r evs ∧ t.trace = s.trace ++ evs ∧ SameRegisters s t ∧
      t.responses = s.responses ++
        [match r with
         | .error code => [code]
         | .ok p =>
           if p.length ≠ 15 then 0x09 :: BitVec.ofNat 8 p.length :: p
           else if p[0]? = some 0x0E then 0x00 :: p.drop 1
           else 0x0A :: BitVec.ofNat 8 p.length :: p]

/-- RGB_TO_HSI answers a hue byte nearest the exact angle, for every colour that is not grey. R264 to R266 in exact
real arithmetic; R269: nearest integer. Which neighbour a tie takes is TiesResolvedByMode's. -/
def Obligations.HueIsNearest : Prop :=
  ∀ (s : State) (r g b : Byte), ¬ (r = g ∧ g = b) →
    ∃ h sat i : Byte,
      exec (.rgbToHsi r g b) s = .next { s with responses := s.responses ++ [[0x00, h, sat, i]] } ∧
      let sum : ℝ := (r.toNat : ℝ) + g.toNat + b.toNat
      let r' : ℝ := r.toNat / sum
      let g' : ℝ := g.toNat / sum
      let b' : ℝ := b.toNat / sum
      let angle := Real.arccos (1 / 2 * ((r' - g') + (r' - b')) / Real.sqrt ((r' - g') ^ 2 + (r' - b') * (g' - b')))
      let theta := if g.toNat < b.toNat then 2 * Real.pi - angle else angle
      |theta * 255 / (2 * Real.pi) - (h.toNat : ℝ)| ≤ 1 / 2

/-- RGB_TO_HSI answers a saturation byte nearest the exact value, and intensity (sum + 1) div 3. R267 and R268, off
the ties in exact arithmetic. Which neighbour a tie takes is TiesResolvedByMode's; that binary64 takes one of the two
rests on log 17. -/
def Obligations.SaturationAndIntensityNearest : Prop :=
  ∀ (s : State) (r g b : Byte), ¬ (r = g ∧ g = b) →
    ∃ h sat i : Byte,
      exec (.rgbToHsi r g b) s = .next { s with responses := s.responses ++ [[0x00, h, sat, i]] } ∧
      i.toNat = (r.toNat + g.toNat + b.toNat + 1) / 3 ∧
      let sum : ℚ := (r.toNat : ℚ) + g.toNat + b.toNat
      let exact := (1 - 3 * min (r.toNat / sum) (min (g.toNat / sum) (b.toNat / sum))) * 255
      |exact - (sat.toNat : ℚ)| ≤ 1 / 2

/-- RGB_TO_HSI of a grey x, x, x is hue 0, saturation 0, intensity x. R261 is the case x = 0, R262 the rest. -/
def Obligations.RgbBlackGrey : Prop :=
  ∀ (s : State) (x : Byte),
    exec (.rgbToHsi x x x) s = .next { s with responses := s.responses ++ [[0x00, 0x00, 0x00, x]] }

/-- At a hue or saturation tie the component is TIE_CHOICE's neighbour in draw mode, the binary64 value in binary64
mode. R271's tie sets, R272's measured hue values (log 15, log 16), and R272's saturation, evaluated operation by
operation in binary64 (log 17), with its two examples. The claim holds for every TIE_CHOICE. -/
def Obligations.TiesResolvedByMode : Prop :=
  (∀ (s : State) (r g b : Byte), ¬ (r = g ∧ g = b) →
    ∃ h sat i : Byte,
      exec (.rgbToHsi r g b) s = .next { s with responses := s.responses ++ [[0x00, h, sat, i]] } ∧
      let sum := r.toNat + g.toNat + b.toNat
      let m := min r.toNat (min g.toNat b.toNat)
      let A : ℤ := 2 * r.toNat - g.toNat - b.toNat
      let D : ℤ := ((r.toNat : ℤ) - g.toNat) ^ 2 + ((r.toNat : ℤ) - b.toNat) * ((g.toNat : ℤ) - b.toNat)
      let side := fun k : TieComponent =>
        Config.tieChoice k ((r.toNat : ℚ) / (sum : ℚ)) ((g.toNat : ℚ) / (sum : ℚ)) ((b.toNat : ℚ) / (sum : ℚ))
      let pick := fun (k : TieComponent) (below : ℕ) =>
        match side k with
        | .floor => below
        | .ceil => below + 1
      (0 < A → A ^ 2 = D → b.toNat ≤ g.toNat →
        h.toNat = match s.profile.tieMode with
                  | .draw => pick .hue 42
                  | .binary64 => 43) ∧
      (0 < A → A ^ 2 = D → g.toNat < b.toNat →
        h.toNat = match s.profile.tieMode with
                  | .draw => pick .hue 212
                  | .binary64 => 212) ∧
      (A < 0 → A ^ 2 = 4 * D →
        h.toNat = match s.profile.tieMode with
                  | .draw => pick .hue 127
                  | .binary64 => 128) ∧
      (510 * (sum - 3 * m) % sum = 0 → 255 * (sum - 3 * m) % sum ≠ 0 →
        (s.profile.tieMode = .draw → sat.toNat = pick .saturation (255 * (sum - 3 * m) / sum)) ∧
        (s.profile.tieMode = .binary64 → ∃ rp gp bp t u v : ℚ,
          NearestBinary64 ((r.toNat : ℚ) / (sum : ℚ)) rp ∧ NearestBinary64 ((g.toNat : ℚ) / (sum : ℚ)) gp ∧
          NearestBinary64 ((b.toNat : ℚ) / (sum : ℚ)) bp ∧ NearestBinary64 (3 * min rp (min gp bp)) t ∧
          NearestBinary64 (1 - t) u ∧ NearestBinary64 (u * 255) v ∧ (sat.toNat : ℤ) = ⌊v + 1 / 2⌋))) ∧
  ∀ s : State, s.profile.tieMode = .binary64 →
    exec (.rgbToHsi 8 5 5) s = .next { s with responses := s.responses ++ [[0x00, 0, 42, 6]] } ∧
    exec (.rgbToHsi 1 1 4) s = .next { s with responses := s.responses ++ [[0x00, 170, 128, 2]] }

/-- Colours with the same ratios get the same hue and saturation, in both tie modes. R273. Grey colours are included:
there hue and saturation are 0. -/
def Obligations.ScaleInvariance : Prop :=
  ∀ (s : State) (r g b r2 g2 b2 : Byte) (k l : ℕ), 0 < k → 0 < l →
    k * r.toNat = l * r2.toNat → k * g.toNat = l * g2.toNat → k * b.toNat = l * b2.toNat →
    ∃ h sat i i2 : Byte,
      exec (.rgbToHsi r g b) s = .next { s with responses := s.responses ++ [[0x00, h, sat, i]] } ∧
      exec (.rgbToHsi r2 g2 b2) s = .next { s with responses := s.responses ++ [[0x00, h, sat, i2]] }

/-- WR_ADDR, WR_SEQ, WR_COLOR, WR_CTRL and WR_POLL_LIMIT write their register and answer OK. R290, R292, R294, R296
and R298 whole. -/
def Obligations.ContextWrites : Prop :=
  ∀ s : State,
    (∀ a0 a1 a2 a3 a4 a5 a6 a7 a8 : Byte, ∀ rest,
      decode (0x30 :: a0 :: a1 :: a2 :: a3 :: a4 :: a5 :: a6 :: a7 :: a8 :: rest) =
        .instr (.wrAddr ⟨a0, a1, a2, a3, a4, a5, a6, a7, a8⟩) rest) ∧
    (∀ a : Address,
      exec (.wrAddr a) s = .next { s with addr := a, addrW := true, responses := s.responses ++ [[0x00]] }) ∧
    (∀ (v : Byte) rest, decode (0x32 :: v :: rest) = .instr (.wrSeq v) rest ∧
      exec (.wrSeq v) s = .next { s with seq := v, seqW := true, responses := s.responses ++ [[0x00]] }) ∧
    (∀ (c : Color) rest, decode (0x34 :: c.h :: c.s :: c.i :: rest) = .instr (.wrColor c) rest ∧
      exec (.wrColor c) s = .next { s with color := c, colorW := true, responses := s.responses ++ [[0x00]] }) ∧
    (∀ (v : Byte) rest, decode (0x36 :: v :: rest) = .instr (.wrCtrl v) rest ∧
      exec (.wrCtrl v) s = .next { s with ctrl := v &&& 0x01, responses := s.responses ++ [[0x00]] }) ∧
    (∀ (l0 l1 l2 l3 : Byte) rest, ∃ l : BitVec 32,
      l.toNat = l0.toNat + 256 * l1.toNat + 65536 * l2.toNat + 16777216 * l3.toNat ∧
      decode (0x38 :: l0 :: l1 :: l2 :: l3 :: rest) = .instr (.wrPollLimit l) rest) ∧
    (∀ l : BitVec 32, exec (.wrPollLimit l) s = .next { s with pollLimit := l, responses := s.responses ++ [[0x00]] })

/-- RD_CTRL, RD_POLL_LIMIT, RD_FAULT and RD_BUSTATE answer OK and the register's bytes. R299 whole; R297, R300 and
R301 but for which values can stand there, which is StepKeepsInvariant's. -/
def Obligations.ContextReads : Prop :=
  (∀ rest, decode (0x37 :: rest) = .instr .rdCtrl rest ∧ decode (0x39 :: rest) = .instr .rdPollLimit rest ∧
    decode (0x3A :: rest) = .instr .rdFault rest ∧ decode (0x3B :: rest) = .instr .rdBustate rest) ∧
  ∀ s : State,
    exec .rdCtrl s = .next { s with responses := s.responses ++ [[0x00, s.ctrl]] } ∧
    (∃ l0 l1 l2 l3 : Byte,
      s.pollLimit.toNat = l0.toNat + 256 * l1.toNat + 65536 * l2.toNat + 16777216 * l3.toNat ∧
      exec .rdPollLimit s = .next { s with responses := s.responses ++ [[0x00, l0, l1, l2, l3]] }) ∧
    exec .rdFault s = .next { s with responses := s.responses ++ [[0x00, s.fault]] } ∧
    exec .rdBustate s = .next { s with
      responses := s.responses ++
        [[0x00, match s.buPhase with
                | .uninit => 0
                | .xportInit => 1
                | .reset => 2
                | .readyPoll => 3
                | .idPoll => 4
                | .config => 5
                | .settle => 6
                | .ready => 7
                | .failed => 8]] }

/-- RD_ADDR, RD_SEQ and RD_COLOR answer the written register, or set their FAULT bit and answer FAULT. R291, R293,
R295 whole. -/
def Obligations.SessionReads : Prop :=
  (∀ rest, decode (0x31 :: rest) = .instr .rdAddr rest ∧ decode (0x33 :: rest) = .instr .rdSeq rest ∧
    decode (0x35 :: rest) = .instr .rdColor rest) ∧
  ∀ s : State,
    (s.addrW = true → exec .rdAddr s = .next { s with
      responses := s.responses ++ [[0x00, s.addr.a0, s.addr.a1, s.addr.a2, s.addr.a3, s.addr.a4, s.addr.a5, s.addr.a6,
        s.addr.a7, s.addr.a8]] }) ∧
    (s.addrW = false → exec .rdAddr s = .next { s with
      fault := s.fault ||| 0x01, responses := s.responses ++ [[0x0C]] }) ∧
    (s.seqW = true → exec .rdSeq s = .next { s with responses := s.responses ++ [[0x00, s.seq]] }) ∧
    (s.seqW = false → exec .rdSeq s = .next { s with
      fault := s.fault ||| 0x02, responses := s.responses ++ [[0x0C]] }) ∧
    (s.colorW = true → exec .rdColor s = .next { s with
      responses := s.responses ++ [[0x00, s.color.h, s.color.s, s.color.i]] }) ∧
    (s.colorW = false → exec .rdColor s = .next { s with
      fault := s.fault ||| 0x04, responses := s.responses ++ [[0x0C]] })

/-- Each register is written only by the operations the spec names as its writers. The 'Written by' lines of R23 to
R31. -/
def Obligations.OnlyWritersWrite : Prop :=
  ∀ (i : Instr) (s t : State), exec i s = .next t →
    ((∀ a, i ≠ .wrAddr a) → t.addr = s.addr ∧ t.addrW = s.addrW) ∧
    ((∀ c, i ≠ .wrColor c) → t.color = s.color ∧ t.colorW = s.colorW) ∧
    ((∀ v, i ≠ .wrCtrl v) → t.ctrl = s.ctrl) ∧
    ((∀ l, i ≠ .wrPollLimit l) → t.pollLimit = s.pollLimit) ∧
    (i ≠ .init → t.buPhase = s.buPhase ∧ t.cfgIdx = s.cfgIdx ∧ t.settleIdx = s.settleIdx ∧ t.pollCnt = s.pollCnt) ∧
    ((∀ v, i ≠ .wrSeq v) → t.seqW = s.seqW ∧ (sendOperands i = none → t.seq = s.seq)) ∧
    t.profile = s.profile ∧ t.hostIn = s.hostIn ∧ t.resetIn = s.resetIn

/-- FAULT bits are set one at a time, by an operation that answers FAULT and does nothing else. R28: set by fault
only, cleared only by block reset. R323: a faulted operation writes no other register. -/
def Obligations.FaultBitsSticky : Prop :=
  ∀ s t : State, s.resetIn = false → step s = .next t →
    t.fault = s.fault ∨
    ∃ bit : Byte, (bit = 0x01 ∨ bit = 0x02 ∨ bit = 0x04) ∧
      t = { s with fault := s.fault ||| bit, responses := s.responses ++ [[0x0C]], hostIn := t.hostIn }

/-- A run not faulted at its end was not faulted at its start; HOST's set-up duty keeps packets from faulting. R323:
the bit is sticky, nothing but block reset clears it, and the step never asserts the reset input itself. R335: HOST
writes what a packet needs, or the operation faults. That INIT is several steps is log 10. -/
def Obligations.SafeRunStartsUnfaulted : Prop :=
  (∀ (k : ℕ) (s t : State), s.resetIn = false → Host.Core.run Sys2Proof.core k s = .next t →
    faulted t = false → faulted s = false) ∧
  (∀ (cs : List (List Byte)) (s t : State), SafeRun cs s t → faulted s = false) ∧
  ∀ (cs : List (List Byte)) (s t : State), DutifulRun cs s t → (∀ c ∈ cs, c ≠ [0x31] ∧ c ≠ [0x33] ∧ c ≠ [0x35]) →
    t.fault = s.fault

/-- The bytes of unwritten registers and idle counters influence nothing. R27: the block never substitutes a default
value. R29: the sub-state is never observable. So the values log 5 and log 6 choose cannot be seen. -/
def Obligations.UnreadValuesInvisible : Prop :=
  ∀ s1 s2 : State, forgetUnread s1 = forgetUnread s2 → forgetOutcome (step s1) = forgetOutcome (step s2)

/-- No operation but RD_BUSTATE depends on BU_PHASE. R329: every operation is available at every moment, in every
BU_PHASE. -/
def Obligations.NoOperationWaitsForBringUp : Prop :=
  ∀ (s : State) (ph : BuPhase),
    exec .init { s with buPhase := ph } = exec .init s ∧
    ∀ i : Instr, i.isWire = false → i ≠ .init → i ≠ .rdBustate →
      ∃ t, exec i s = .next t ∧ exec i { s with buPhase := ph } = .next { t with buPhase := ph }

/-- Every host operation is answered once, so that a run of n commands ends with n responses more. R320: every
operation ends with exactly one result code. R336: a run ends when the response to its last command is returned, with
the list of its n responses. Completion for every host operation, in every mode. That INIT is several steps is log 10;
the one byte of an unassigned code is log 9. -/
def Obligations.EveryHostOperationAnswersOnce : Prop :=
  (∀ (i : Instr) (s : State), i.isWire = false → i ≠ .init →
    ∃ t code data evs, exec i s = .next t ∧ t.responses = s.responses ++ [code :: data] ∧ code.toNat ≤ 0x0C ∧
      t.trace = s.trace ++ evs ∧ evs.length ≤ 2) ∧
  (∀ (c : List Byte) (s : State), profileWf s.profile = true → AwaitsHost s → IsCommand c →
    (c = [0x01] → s.pollLimit ≠ 0) → ∃ t, Answered c s t) ∧
  ∀ (cs : List (List Byte)) (s t : State), HostRun cs s t →
    ∃ rs, rs.length = cs.length ∧ t.responses = s.responses ++ rs ∧
      ∀ r ∈ rs, ∃ code data, r = code :: data ∧ code.toNat ≤ 0x0C

/-- When the waiting bytes begin with a host command, a step is that operation on the bytes after it. How an
instruction reaches a run (log 21). That several commands may wait is log 7. -/
def Obligations.StepRunsDecodedCommand : Prop :=
  ∀ (s : State) (i : Instr) (rest : List Byte), profileWf s.profile = true → s.resetIn = false →
    (s.buPhase = .uninit ∨ s.buPhase = .ready ∨ s.buPhase = .failed) → decode s.hostIn = .instr i rest →
    step s = exec i { s with hostIn := rest }

/-- An unassigned operation code is answered ILLEGAL_COMMAND, one byte consumed. R105 (1). That the code takes one
byte is read from V9 (log 9). -/
def Obligations.StepAnswersUnassignedCode : Prop :=
  ∀ (s : State) (b : Byte) (rest : List Byte), profileWf s.profile = true → s.resetIn = false →
    (s.buPhase = .uninit ∨ s.buPhase = .ready ∨ s.buPhase = .failed) → s.hostIn = b :: rest →
    b ∉ ([0x01, 0x02, 0x03, 0x04, 0x05, 0x06, 0x10, 0x11, 0x12, 0x13, 0x14, 0x15, 0x16, 0x17, 0x20] ++
      [0x30, 0x31, 0x32, 0x33, 0x34, 0x35, 0x36, 0x37, 0x38, 0x39, 0x3A, 0x3B] : List Byte) →
    step s = .next { s with hostIn := rest, responses := s.responses ++ [[0x0B]] }

/-- While bytes of a command are missing there is no step: with a part of one the block is stuck. R101: the block
waits for more bytes; R337: an incomplete command has no step. The names of the two stops, and that no byte at all has
one of its own, are the model's choice (log 8). -/
def Obligations.StepWaitsForMissingBytes : Prop :=
  ∀ s : State,
    (profileWf s.profile = true → s.resetIn = false →
      (s.buPhase = .uninit ∨ s.buPhase = .ready ∨ s.buPhase = .failed) →
      (∀ (i : Instr) (missing : List Byte), i.isWire = false →
        (∀ l, i = .fifoWrite l ∨ i = .parse l → l.length ≤ 255) → missing ≠ [] → s.hostIn ≠ [] →
        s.hostIn ++ missing = encode s.profile i → step s = .fault .stuck) ∧
      (s.hostIn = [] → step s = .fault .noCommand)) ∧
    (AwaitsHost s → ∀ t, step s ≠ .next t)

/-- A profile that breaks a condition of R8 is refused. R8 (1) to (6); addresses below 0x40 are a matter of type (log
19). -/
def Obligations.StepRefusesIllegalProfile : Prop :=
  ∀ s : State,
    (s.profile.pataddr = s.profile.fifoAddr ∨ s.profile.pataddr.toNat ≤ 0x2E ∨ s.profile.fifoAddr.toNat ≤ 0x2E ∨
      (0x30 ≤ s.profile.pataddr.toNat ∧ s.profile.pataddr.toNat ≤ 0x3D) ∨
      (0x30 ≤ s.profile.fifoAddr.toNat ∧ s.profile.fifoAddr.toNat ≤ 0x3D) ∨
      (∃ b ∈ profileCodes s.profile, 0x40 ≤ b.toNat ∨ b = 0x00) ∨ ¬ (profileCodes s.profile).Nodup ∨
      s.profile.idRegAddr.toNat < 0x30 ∨ 0x3D < s.profile.idRegAddr.toNat ∨
      s.profile.configTable.length ≠ 33 ∨ s.profile.scratchMax < 16) →
    step s = .refused .profileRefused

/-- Block reset puts every register at its reset value and makes no exchange. R350 and R37. That the responses start
empty, the profile and the coming answers stay and the input drops is log 12. -/
def Obligations.BlockResetRestoresRegisters : Prop :=
  ∀ s : State, profileWf s.profile = true → s.resetIn = true →
    ∃ t, step s = .next t ∧ t.addrW = false ∧ t.seqW = false ∧ t.colorW = false ∧ t.fault = 0x00 ∧
      t.buPhase = .uninit ∧ t.ctrl = 0x00 ∧ t.pollLimit = 0 ∧ t.trace = [] ∧ t.responses = [] ∧ t.hostIn = [] ∧
      t.resetIn = false ∧ t.profile = s.profile ∧ t.oracle = s.oracle

/-- After reset every register has the value of R37. R37's table. The values nothing can read (log 5, log 6) are no
part of it. -/
def Obligations.ResetValues : Prop :=
  State.reset.addrW = false ∧ State.reset.seqW = false ∧ State.reset.colorW = false ∧ State.reset.fault = 0x00 ∧
    State.reset.buPhase = .uninit ∧ phaseCode State.reset.buPhase = 0 ∧ State.reset.ctrl = 0x00 ∧
    State.reset.pollLimit = 0 ∧ State.reset.trace = []

/-- The state after reset meets the machine's invariants. Witness of the invariants (Safety.lean). The reference
profile is log 1. -/
def Obligations.ResetMeetsInvariants : Prop :=
  Inv State.reset ∧ BringUpOrdered State.reset ∧ ConfiguredBeforeStrobes .start State.reset

/-- Every step keeps the profile legal, reserved bits 0, indices in range, responses and TRACE well formed. The
whole-machine rules of R28 to R31, R94 and R320 in one invariant (Safety.Inv). BU_PHASE between steps is log 11. -/
def Obligations.StepKeepsInvariant : Prop :=
  ∀ s t : State, Inv s → step s = .next t → Inv t

/-- A step only appends: at most two events and one response, and the profile stays. R32: nothing removes or reorders
events. R36: no operation changes the profile. R361: no operation but INIT makes more than two exchanges. INIT makes
40 and more: the bound holds of it only because the model makes INIT several steps with one exchange each, its choice
(log 10). -/
def Obligations.TraceOnlyGrows : Prop :=
  ∀ s t : State, s.resetIn = false → step s = .next t →
    (∃ evs, evs.length ≤ 2 ∧ t.trace = s.trace ++ evs) ∧ (∃ rs, rs.length ≤ 1 ∧ t.responses = s.responses ++ rs) ∧
    t.profile = s.profile

/-- On REFCHIP, SET_REG then GET_REG of an address up to 0x3D returns the byte written. The source's round-trip
property, with REFCHIP as a named premise (R75, log 22). -/
def Obligations.RefchipRoundTrip : Prop :=
  ∀ (s : State) (c : RefChip) (a v : Byte), a.toNat ≤ 0x3D → c.reg.length = 64 →
    ∃ t1 t2 evs, exec (.setReg a v) s = .next t1 ∧ exec (.getReg a) t1 = .next t2 ∧ t2.trace = s.trace ++ evs ∧
      ((refFollows s.profile c evs).isSome = true → (∀ tx, Event.xfer tx .fail ∉ evs) →
        t2.responses = s.responses ++ [[0x00], [0x00, v]])

/-- On REFCHIP with an empty queue, a send that answers OK puts exactly its packet on the air. V12's REFCHIP rows,
with REFCHIP as a named premise (R75, log 22). -/
def Obligations.RefchipSendReachesAir : Prop :=
  ∀ (s : State) (i : Instr) (cmd cf : Byte) (c : Color) (chip : RefChip), profileWf s.profile = true →
    sendOperands i = some (cmd, cf, c) → LegalOperands cmd cf → firstUnwritten s cf = none → chip.txq = [] →
    ∃ t evs, exec i s = .next t ∧ t.trace = s.trace ++ evs ∧
      ∀ chip', refFollows s.profile chip evs = some chip' → t.responses = s.responses ++ [[0x00]] →
        chip'.air = chip.air ++ [sessionPacket s cmd cf c] ∧ chip'.txq = [] ∧ chip'.cstate = .idle

end Slice0
end

