-- ==== Sys2Proof/Laws/State.lean ====
section
/-! SUPPORT. One lemma per field per update of the state, true by rfl, so that no proof unfolds a record update. -/

namespace Sys2Proof.Machine

variable (s : State)

/-! ### writeAddr -/

@[simp] theorem State.writeAddr_profile (a : Address) : (s.writeAddr a).profile = s.profile := rfl
@[simp] theorem State.writeAddr_addr (a : Address) : (s.writeAddr a).addr = a := rfl
@[simp] theorem State.writeAddr_addrW (a : Address) : (s.writeAddr a).addrW = true := rfl
@[simp] theorem State.writeAddr_seq (a : Address) : (s.writeAddr a).seq = s.seq := rfl
@[simp] theorem State.writeAddr_seqW (a : Address) : (s.writeAddr a).seqW = s.seqW := rfl
@[simp] theorem State.writeAddr_color (a : Address) : (s.writeAddr a).color = s.color := rfl
@[simp] theorem State.writeAddr_colorW (a : Address) : (s.writeAddr a).colorW = s.colorW := rfl
@[simp] theorem State.writeAddr_fault (a : Address) : (s.writeAddr a).fault = s.fault := rfl
@[simp] theorem State.writeAddr_buPhase (a : Address) : (s.writeAddr a).buPhase = s.buPhase := rfl
@[simp] theorem State.writeAddr_cfgIdx (a : Address) : (s.writeAddr a).cfgIdx = s.cfgIdx := rfl
@[simp] theorem State.writeAddr_settleIdx (a : Address) : (s.writeAddr a).settleIdx = s.settleIdx := rfl
@[simp] theorem State.writeAddr_pollCnt (a : Address) : (s.writeAddr a).pollCnt = s.pollCnt := rfl
@[simp] theorem State.writeAddr_ctrl (a : Address) : (s.writeAddr a).ctrl = s.ctrl := rfl
@[simp] theorem State.writeAddr_pollLimit (a : Address) : (s.writeAddr a).pollLimit = s.pollLimit := rfl
@[simp] theorem State.writeAddr_trace (a : Address) : (s.writeAddr a).trace = s.trace := rfl
@[simp] theorem State.writeAddr_responses (a : Address) : (s.writeAddr a).responses = s.responses := rfl
@[simp] theorem State.writeAddr_hostIn (a : Address) : (s.writeAddr a).hostIn = s.hostIn := rfl
@[simp] theorem State.writeAddr_resetIn (a : Address) : (s.writeAddr a).resetIn = s.resetIn := rfl
@[simp] theorem State.writeAddr_oracle (a : Address) : (s.writeAddr a).oracle = s.oracle := rfl

/-! ### writeSeq -/

@[simp] theorem State.writeSeq_profile (v : Byte) : (s.writeSeq v).profile = s.profile := rfl
@[simp] theorem State.writeSeq_addr (v : Byte) : (s.writeSeq v).addr = s.addr := rfl
@[simp] theorem State.writeSeq_addrW (v : Byte) : (s.writeSeq v).addrW = s.addrW := rfl
@[simp] theorem State.writeSeq_seq (v : Byte) : (s.writeSeq v).seq = v := rfl
@[simp] theorem State.writeSeq_seqW (v : Byte) : (s.writeSeq v).seqW = true := rfl
@[simp] theorem State.writeSeq_color (v : Byte) : (s.writeSeq v).color = s.color := rfl
@[simp] theorem State.writeSeq_colorW (v : Byte) : (s.writeSeq v).colorW = s.colorW := rfl
@[simp] theorem State.writeSeq_fault (v : Byte) : (s.writeSeq v).fault = s.fault := rfl
@[simp] theorem State.writeSeq_buPhase (v : Byte) : (s.writeSeq v).buPhase = s.buPhase := rfl
@[simp] theorem State.writeSeq_cfgIdx (v : Byte) : (s.writeSeq v).cfgIdx = s.cfgIdx := rfl
@[simp] theorem State.writeSeq_settleIdx (v : Byte) : (s.writeSeq v).settleIdx = s.settleIdx := rfl
@[simp] theorem State.writeSeq_pollCnt (v : Byte) : (s.writeSeq v).pollCnt = s.pollCnt := rfl
@[simp] theorem State.writeSeq_ctrl (v : Byte) : (s.writeSeq v).ctrl = s.ctrl := rfl
@[simp] theorem State.writeSeq_pollLimit (v : Byte) : (s.writeSeq v).pollLimit = s.pollLimit := rfl
@[simp] theorem State.writeSeq_trace (v : Byte) : (s.writeSeq v).trace = s.trace := rfl
@[simp] theorem State.writeSeq_responses (v : Byte) : (s.writeSeq v).responses = s.responses := rfl
@[simp] theorem State.writeSeq_hostIn (v : Byte) : (s.writeSeq v).hostIn = s.hostIn := rfl
@[simp] theorem State.writeSeq_resetIn (v : Byte) : (s.writeSeq v).resetIn = s.resetIn := rfl
@[simp] theorem State.writeSeq_oracle (v : Byte) : (s.writeSeq v).oracle = s.oracle := rfl

/-! ### advanceSeq -/

@[simp] theorem State.advanceSeq_profile : (s.advanceSeq).profile = s.profile := rfl
@[simp] theorem State.advanceSeq_addr : (s.advanceSeq).addr = s.addr := rfl
@[simp] theorem State.advanceSeq_addrW : (s.advanceSeq).addrW = s.addrW := rfl
@[simp] theorem State.advanceSeq_seq : (s.advanceSeq).seq = s.seq + 1 := rfl
@[simp] theorem State.advanceSeq_seqW : (s.advanceSeq).seqW = s.seqW := rfl
@[simp] theorem State.advanceSeq_color : (s.advanceSeq).color = s.color := rfl
@[simp] theorem State.advanceSeq_colorW : (s.advanceSeq).colorW = s.colorW := rfl
@[simp] theorem State.advanceSeq_fault : (s.advanceSeq).fault = s.fault := rfl
@[simp] theorem State.advanceSeq_buPhase : (s.advanceSeq).buPhase = s.buPhase := rfl
@[simp] theorem State.advanceSeq_cfgIdx : (s.advanceSeq).cfgIdx = s.cfgIdx := rfl
@[simp] theorem State.advanceSeq_settleIdx : (s.advanceSeq).settleIdx = s.settleIdx := rfl
@[simp] theorem State.advanceSeq_pollCnt : (s.advanceSeq).pollCnt = s.pollCnt := rfl
@[simp] theorem State.advanceSeq_ctrl : (s.advanceSeq).ctrl = s.ctrl := rfl
@[simp] theorem State.advanceSeq_pollLimit : (s.advanceSeq).pollLimit = s.pollLimit := rfl
@[simp] theorem State.advanceSeq_trace : (s.advanceSeq).trace = s.trace := rfl
@[simp] theorem State.advanceSeq_responses : (s.advanceSeq).responses = s.responses := rfl
@[simp] theorem State.advanceSeq_hostIn : (s.advanceSeq).hostIn = s.hostIn := rfl
@[simp] theorem State.advanceSeq_resetIn : (s.advanceSeq).resetIn = s.resetIn := rfl
@[simp] theorem State.advanceSeq_oracle : (s.advanceSeq).oracle = s.oracle := rfl

/-! ### writeColor -/

@[simp] theorem State.writeColor_profile (c : Color) : (s.writeColor c).profile = s.profile := rfl
@[simp] theorem State.writeColor_addr (c : Color) : (s.writeColor c).addr = s.addr := rfl
@[simp] theorem State.writeColor_addrW (c : Color) : (s.writeColor c).addrW = s.addrW := rfl
@[simp] theorem State.writeColor_seq (c : Color) : (s.writeColor c).seq = s.seq := rfl
@[simp] theorem State.writeColor_seqW (c : Color) : (s.writeColor c).seqW = s.seqW := rfl
@[simp] theorem State.writeColor_color (c : Color) : (s.writeColor c).color = c := rfl
@[simp] theorem State.writeColor_colorW (c : Color) : (s.writeColor c).colorW = true := rfl
@[simp] theorem State.writeColor_fault (c : Color) : (s.writeColor c).fault = s.fault := rfl
@[simp] theorem State.writeColor_buPhase (c : Color) : (s.writeColor c).buPhase = s.buPhase := rfl
@[simp] theorem State.writeColor_cfgIdx (c : Color) : (s.writeColor c).cfgIdx = s.cfgIdx := rfl
@[simp] theorem State.writeColor_settleIdx (c : Color) : (s.writeColor c).settleIdx = s.settleIdx := rfl
@[simp] theorem State.writeColor_pollCnt (c : Color) : (s.writeColor c).pollCnt = s.pollCnt := rfl
@[simp] theorem State.writeColor_ctrl (c : Color) : (s.writeColor c).ctrl = s.ctrl := rfl
@[simp] theorem State.writeColor_pollLimit (c : Color) : (s.writeColor c).pollLimit = s.pollLimit := rfl
@[simp] theorem State.writeColor_trace (c : Color) : (s.writeColor c).trace = s.trace := rfl
@[simp] theorem State.writeColor_responses (c : Color) : (s.writeColor c).responses = s.responses := rfl
@[simp] theorem State.writeColor_hostIn (c : Color) : (s.writeColor c).hostIn = s.hostIn := rfl
@[simp] theorem State.writeColor_resetIn (c : Color) : (s.writeColor c).resetIn = s.resetIn := rfl
@[simp] theorem State.writeColor_oracle (c : Color) : (s.writeColor c).oracle = s.oracle := rfl

/-! ### setFaultBit -/

@[simp] theorem State.setFaultBit_profile (b : FaultBit) : (s.setFaultBit b).profile = s.profile := rfl
@[simp] theorem State.setFaultBit_addr (b : FaultBit) : (s.setFaultBit b).addr = s.addr := rfl
@[simp] theorem State.setFaultBit_addrW (b : FaultBit) : (s.setFaultBit b).addrW = s.addrW := rfl
@[simp] theorem State.setFaultBit_seq (b : FaultBit) : (s.setFaultBit b).seq = s.seq := rfl
@[simp] theorem State.setFaultBit_seqW (b : FaultBit) : (s.setFaultBit b).seqW = s.seqW := rfl
@[simp] theorem State.setFaultBit_color (b : FaultBit) : (s.setFaultBit b).color = s.color := rfl
@[simp] theorem State.setFaultBit_colorW (b : FaultBit) : (s.setFaultBit b).colorW = s.colorW := rfl
@[simp] theorem State.setFaultBit_fault (b : FaultBit) : (s.setFaultBit b).fault = s.fault ||| faultMask b := rfl
@[simp] theorem State.setFaultBit_buPhase (b : FaultBit) : (s.setFaultBit b).buPhase = s.buPhase := rfl
@[simp] theorem State.setFaultBit_cfgIdx (b : FaultBit) : (s.setFaultBit b).cfgIdx = s.cfgIdx := rfl
@[simp] theorem State.setFaultBit_settleIdx (b : FaultBit) : (s.setFaultBit b).settleIdx = s.settleIdx := rfl
@[simp] theorem State.setFaultBit_pollCnt (b : FaultBit) : (s.setFaultBit b).pollCnt = s.pollCnt := rfl
@[simp] theorem State.setFaultBit_ctrl (b : FaultBit) : (s.setFaultBit b).ctrl = s.ctrl := rfl
@[simp] theorem State.setFaultBit_pollLimit (b : FaultBit) : (s.setFaultBit b).pollLimit = s.pollLimit := rfl
@[simp] theorem State.setFaultBit_trace (b : FaultBit) : (s.setFaultBit b).trace = s.trace := rfl
@[simp] theorem State.setFaultBit_responses (b : FaultBit) : (s.setFaultBit b).responses = s.responses := rfl
@[simp] theorem State.setFaultBit_hostIn (b : FaultBit) : (s.setFaultBit b).hostIn = s.hostIn := rfl
@[simp] theorem State.setFaultBit_resetIn (b : FaultBit) : (s.setFaultBit b).resetIn = s.resetIn := rfl
@[simp] theorem State.setFaultBit_oracle (b : FaultBit) : (s.setFaultBit b).oracle = s.oracle := rfl

/-! ### setPhase -/

@[simp] theorem State.setPhase_profile (p : BuPhase) : (s.setPhase p).profile = s.profile := rfl
@[simp] theorem State.setPhase_addr (p : BuPhase) : (s.setPhase p).addr = s.addr := rfl
@[simp] theorem State.setPhase_addrW (p : BuPhase) : (s.setPhase p).addrW = s.addrW := rfl
@[simp] theorem State.setPhase_seq (p : BuPhase) : (s.setPhase p).seq = s.seq := rfl
@[simp] theorem State.setPhase_seqW (p : BuPhase) : (s.setPhase p).seqW = s.seqW := rfl
@[simp] theorem State.setPhase_color (p : BuPhase) : (s.setPhase p).color = s.color := rfl
@[simp] theorem State.setPhase_colorW (p : BuPhase) : (s.setPhase p).colorW = s.colorW := rfl
@[simp] theorem State.setPhase_fault (p : BuPhase) : (s.setPhase p).fault = s.fault := rfl
@[simp] theorem State.setPhase_buPhase (p : BuPhase) : (s.setPhase p).buPhase = p := rfl
@[simp] theorem State.setPhase_cfgIdx (p : BuPhase) : (s.setPhase p).cfgIdx = s.cfgIdx := rfl
@[simp] theorem State.setPhase_settleIdx (p : BuPhase) : (s.setPhase p).settleIdx = s.settleIdx := rfl
@[simp] theorem State.setPhase_pollCnt (p : BuPhase) : (s.setPhase p).pollCnt = s.pollCnt := rfl
@[simp] theorem State.setPhase_ctrl (p : BuPhase) : (s.setPhase p).ctrl = s.ctrl := rfl
@[simp] theorem State.setPhase_pollLimit (p : BuPhase) : (s.setPhase p).pollLimit = s.pollLimit := rfl
@[simp] theorem State.setPhase_trace (p : BuPhase) : (s.setPhase p).trace = s.trace := rfl
@[simp] theorem State.setPhase_responses (p : BuPhase) : (s.setPhase p).responses = s.responses := rfl
@[simp] theorem State.setPhase_hostIn (p : BuPhase) : (s.setPhase p).hostIn = s.hostIn := rfl
@[simp] theorem State.setPhase_resetIn (p : BuPhase) : (s.setPhase p).resetIn = s.resetIn := rfl
@[simp] theorem State.setPhase_oracle (p : BuPhase) : (s.setPhase p).oracle = s.oracle := rfl

/-! ### setCfgIdx -/

@[simp] theorem State.setCfgIdx_profile (k : Nat) : (s.setCfgIdx k).profile = s.profile := rfl
@[simp] theorem State.setCfgIdx_addr (k : Nat) : (s.setCfgIdx k).addr = s.addr := rfl
@[simp] theorem State.setCfgIdx_addrW (k : Nat) : (s.setCfgIdx k).addrW = s.addrW := rfl
@[simp] theorem State.setCfgIdx_seq (k : Nat) : (s.setCfgIdx k).seq = s.seq := rfl
@[simp] theorem State.setCfgIdx_seqW (k : Nat) : (s.setCfgIdx k).seqW = s.seqW := rfl
@[simp] theorem State.setCfgIdx_color (k : Nat) : (s.setCfgIdx k).color = s.color := rfl
@[simp] theorem State.setCfgIdx_colorW (k : Nat) : (s.setCfgIdx k).colorW = s.colorW := rfl
@[simp] theorem State.setCfgIdx_fault (k : Nat) : (s.setCfgIdx k).fault = s.fault := rfl
@[simp] theorem State.setCfgIdx_buPhase (k : Nat) : (s.setCfgIdx k).buPhase = s.buPhase := rfl
@[simp] theorem State.setCfgIdx_cfgIdx (k : Nat) : (s.setCfgIdx k).cfgIdx = k := rfl
@[simp] theorem State.setCfgIdx_settleIdx (k : Nat) : (s.setCfgIdx k).settleIdx = s.settleIdx := rfl
@[simp] theorem State.setCfgIdx_pollCnt (k : Nat) : (s.setCfgIdx k).pollCnt = s.pollCnt := rfl
@[simp] theorem State.setCfgIdx_ctrl (k : Nat) : (s.setCfgIdx k).ctrl = s.ctrl := rfl
@[simp] theorem State.setCfgIdx_pollLimit (k : Nat) : (s.setCfgIdx k).pollLimit = s.pollLimit := rfl
@[simp] theorem State.setCfgIdx_trace (k : Nat) : (s.setCfgIdx k).trace = s.trace := rfl
@[simp] theorem State.setCfgIdx_responses (k : Nat) : (s.setCfgIdx k).responses = s.responses := rfl
@[simp] theorem State.setCfgIdx_hostIn (k : Nat) : (s.setCfgIdx k).hostIn = s.hostIn := rfl
@[simp] theorem State.setCfgIdx_resetIn (k : Nat) : (s.setCfgIdx k).resetIn = s.resetIn := rfl
@[simp] theorem State.setCfgIdx_oracle (k : Nat) : (s.setCfgIdx k).oracle = s.oracle := rfl

/-! ### setSettleIdx -/

@[simp] theorem State.setSettleIdx_profile (j : Nat) : (s.setSettleIdx j).profile = s.profile := rfl
@[simp] theorem State.setSettleIdx_addr (j : Nat) : (s.setSettleIdx j).addr = s.addr := rfl
@[simp] theorem State.setSettleIdx_addrW (j : Nat) : (s.setSettleIdx j).addrW = s.addrW := rfl
@[simp] theorem State.setSettleIdx_seq (j : Nat) : (s.setSettleIdx j).seq = s.seq := rfl
@[simp] theorem State.setSettleIdx_seqW (j : Nat) : (s.setSettleIdx j).seqW = s.seqW := rfl
@[simp] theorem State.setSettleIdx_color (j : Nat) : (s.setSettleIdx j).color = s.color := rfl
@[simp] theorem State.setSettleIdx_colorW (j : Nat) : (s.setSettleIdx j).colorW = s.colorW := rfl
@[simp] theorem State.setSettleIdx_fault (j : Nat) : (s.setSettleIdx j).fault = s.fault := rfl
@[simp] theorem State.setSettleIdx_buPhase (j : Nat) : (s.setSettleIdx j).buPhase = s.buPhase := rfl
@[simp] theorem State.setSettleIdx_cfgIdx (j : Nat) : (s.setSettleIdx j).cfgIdx = s.cfgIdx := rfl
@[simp] theorem State.setSettleIdx_settleIdx (j : Nat) : (s.setSettleIdx j).settleIdx = j := rfl
@[simp] theorem State.setSettleIdx_pollCnt (j : Nat) : (s.setSettleIdx j).pollCnt = s.pollCnt := rfl
@[simp] theorem State.setSettleIdx_ctrl (j : Nat) : (s.setSettleIdx j).ctrl = s.ctrl := rfl
@[simp] theorem State.setSettleIdx_pollLimit (j : Nat) : (s.setSettleIdx j).pollLimit = s.pollLimit := rfl
@[simp] theorem State.setSettleIdx_trace (j : Nat) : (s.setSettleIdx j).trace = s.trace := rfl
@[simp] theorem State.setSettleIdx_responses (j : Nat) : (s.setSettleIdx j).responses = s.responses := rfl
@[simp] theorem State.setSettleIdx_hostIn (j : Nat) : (s.setSettleIdx j).hostIn = s.hostIn := rfl
@[simp] theorem State.setSettleIdx_resetIn (j : Nat) : (s.setSettleIdx j).resetIn = s.resetIn := rfl
@[simp] theorem State.setSettleIdx_oracle (j : Nat) : (s.setSettleIdx j).oracle = s.oracle := rfl

/-! ### setPollCnt -/

@[simp] theorem State.setPollCnt_profile (n : Nat) : (s.setPollCnt n).profile = s.profile := rfl
@[simp] theorem State.setPollCnt_addr (n : Nat) : (s.setPollCnt n).addr = s.addr := rfl
@[simp] theorem State.setPollCnt_addrW (n : Nat) : (s.setPollCnt n).addrW = s.addrW := rfl
@[simp] theorem State.setPollCnt_seq (n : Nat) : (s.setPollCnt n).seq = s.seq := rfl
@[simp] theorem State.setPollCnt_seqW (n : Nat) : (s.setPollCnt n).seqW = s.seqW := rfl
@[simp] theorem State.setPollCnt_color (n : Nat) : (s.setPollCnt n).color = s.color := rfl
@[simp] theorem State.setPollCnt_colorW (n : Nat) : (s.setPollCnt n).colorW = s.colorW := rfl
@[simp] theorem State.setPollCnt_fault (n : Nat) : (s.setPollCnt n).fault = s.fault := rfl
@[simp] theorem State.setPollCnt_buPhase (n : Nat) : (s.setPollCnt n).buPhase = s.buPhase := rfl
@[simp] theorem State.setPollCnt_cfgIdx (n : Nat) : (s.setPollCnt n).cfgIdx = s.cfgIdx := rfl
@[simp] theorem State.setPollCnt_settleIdx (n : Nat) : (s.setPollCnt n).settleIdx = s.settleIdx := rfl
@[simp] theorem State.setPollCnt_pollCnt (n : Nat) : (s.setPollCnt n).pollCnt = n := rfl
@[simp] theorem State.setPollCnt_ctrl (n : Nat) : (s.setPollCnt n).ctrl = s.ctrl := rfl
@[simp] theorem State.setPollCnt_pollLimit (n : Nat) : (s.setPollCnt n).pollLimit = s.pollLimit := rfl
@[simp] theorem State.setPollCnt_trace (n : Nat) : (s.setPollCnt n).trace = s.trace := rfl
@[simp] theorem State.setPollCnt_responses (n : Nat) : (s.setPollCnt n).responses = s.responses := rfl
@[simp] theorem State.setPollCnt_hostIn (n : Nat) : (s.setPollCnt n).hostIn = s.hostIn := rfl
@[simp] theorem State.setPollCnt_resetIn (n : Nat) : (s.setPollCnt n).resetIn = s.resetIn := rfl
@[simp] theorem State.setPollCnt_oracle (n : Nat) : (s.setPollCnt n).oracle = s.oracle := rfl

/-! ### writeCtrl -/

@[simp] theorem State.writeCtrl_profile (v : Byte) : (s.writeCtrl v).profile = s.profile := rfl
@[simp] theorem State.writeCtrl_addr (v : Byte) : (s.writeCtrl v).addr = s.addr := rfl
@[simp] theorem State.writeCtrl_addrW (v : Byte) : (s.writeCtrl v).addrW = s.addrW := rfl
@[simp] theorem State.writeCtrl_seq (v : Byte) : (s.writeCtrl v).seq = s.seq := rfl
@[simp] theorem State.writeCtrl_seqW (v : Byte) : (s.writeCtrl v).seqW = s.seqW := rfl
@[simp] theorem State.writeCtrl_color (v : Byte) : (s.writeCtrl v).color = s.color := rfl
@[simp] theorem State.writeCtrl_colorW (v : Byte) : (s.writeCtrl v).colorW = s.colorW := rfl
@[simp] theorem State.writeCtrl_fault (v : Byte) : (s.writeCtrl v).fault = s.fault := rfl
@[simp] theorem State.writeCtrl_buPhase (v : Byte) : (s.writeCtrl v).buPhase = s.buPhase := rfl
@[simp] theorem State.writeCtrl_cfgIdx (v : Byte) : (s.writeCtrl v).cfgIdx = s.cfgIdx := rfl
@[simp] theorem State.writeCtrl_settleIdx (v : Byte) : (s.writeCtrl v).settleIdx = s.settleIdx := rfl
@[simp] theorem State.writeCtrl_pollCnt (v : Byte) : (s.writeCtrl v).pollCnt = s.pollCnt := rfl
@[simp] theorem State.writeCtrl_ctrl (v : Byte) : (s.writeCtrl v).ctrl = ctrlKept v := rfl
@[simp] theorem State.writeCtrl_pollLimit (v : Byte) : (s.writeCtrl v).pollLimit = s.pollLimit := rfl
@[simp] theorem State.writeCtrl_trace (v : Byte) : (s.writeCtrl v).trace = s.trace := rfl
@[simp] theorem State.writeCtrl_responses (v : Byte) : (s.writeCtrl v).responses = s.responses := rfl
@[simp] theorem State.writeCtrl_hostIn (v : Byte) : (s.writeCtrl v).hostIn = s.hostIn := rfl
@[simp] theorem State.writeCtrl_resetIn (v : Byte) : (s.writeCtrl v).resetIn = s.resetIn := rfl
@[simp] theorem State.writeCtrl_oracle (v : Byte) : (s.writeCtrl v).oracle = s.oracle := rfl

/-! ### setPollLimit -/

@[simp] theorem State.setPollLimit_profile (l : BitVec 32) : (s.setPollLimit l).profile = s.profile := rfl
@[simp] theorem State.setPollLimit_addr (l : BitVec 32) : (s.setPollLimit l).addr = s.addr := rfl
@[simp] theorem State.setPollLimit_addrW (l : BitVec 32) : (s.setPollLimit l).addrW = s.addrW := rfl
@[simp] theorem State.setPollLimit_seq (l : BitVec 32) : (s.setPollLimit l).seq = s.seq := rfl
@[simp] theorem State.setPollLimit_seqW (l : BitVec 32) : (s.setPollLimit l).seqW = s.seqW := rfl
@[simp] theorem State.setPollLimit_color (l : BitVec 32) : (s.setPollLimit l).color = s.color := rfl
@[simp] theorem State.setPollLimit_colorW (l : BitVec 32) : (s.setPollLimit l).colorW = s.colorW := rfl
@[simp] theorem State.setPollLimit_fault (l : BitVec 32) : (s.setPollLimit l).fault = s.fault := rfl
@[simp] theorem State.setPollLimit_buPhase (l : BitVec 32) : (s.setPollLimit l).buPhase = s.buPhase := rfl
@[simp] theorem State.setPollLimit_cfgIdx (l : BitVec 32) : (s.setPollLimit l).cfgIdx = s.cfgIdx := rfl
@[simp] theorem State.setPollLimit_settleIdx (l : BitVec 32) : (s.setPollLimit l).settleIdx = s.settleIdx := rfl
@[simp] theorem State.setPollLimit_pollCnt (l : BitVec 32) : (s.setPollLimit l).pollCnt = s.pollCnt := rfl
@[simp] theorem State.setPollLimit_ctrl (l : BitVec 32) : (s.setPollLimit l).ctrl = s.ctrl := rfl
@[simp] theorem State.setPollLimit_pollLimit (l : BitVec 32) : (s.setPollLimit l).pollLimit = l := rfl
@[simp] theorem State.setPollLimit_trace (l : BitVec 32) : (s.setPollLimit l).trace = s.trace := rfl
@[simp] theorem State.setPollLimit_responses (l : BitVec 32) : (s.setPollLimit l).responses = s.responses := rfl
@[simp] theorem State.setPollLimit_hostIn (l : BitVec 32) : (s.setPollLimit l).hostIn = s.hostIn := rfl
@[simp] theorem State.setPollLimit_resetIn (l : BitVec 32) : (s.setPollLimit l).resetIn = s.resetIn := rfl
@[simp] theorem State.setPollLimit_oracle (l : BitVec 32) : (s.setPollLimit l).oracle = s.oracle := rfl

/-! ### logEvent -/

@[simp] theorem State.logEvent_profile (e : Event) : (s.logEvent e).profile = s.profile := rfl
@[simp] theorem State.logEvent_addr (e : Event) : (s.logEvent e).addr = s.addr := rfl
@[simp] theorem State.logEvent_addrW (e : Event) : (s.logEvent e).addrW = s.addrW := rfl
@[simp] theorem State.logEvent_seq (e : Event) : (s.logEvent e).seq = s.seq := rfl
@[simp] theorem State.logEvent_seqW (e : Event) : (s.logEvent e).seqW = s.seqW := rfl
@[simp] theorem State.logEvent_color (e : Event) : (s.logEvent e).color = s.color := rfl
@[simp] theorem State.logEvent_colorW (e : Event) : (s.logEvent e).colorW = s.colorW := rfl
@[simp] theorem State.logEvent_fault (e : Event) : (s.logEvent e).fault = s.fault := rfl
@[simp] theorem State.logEvent_buPhase (e : Event) : (s.logEvent e).buPhase = s.buPhase := rfl
@[simp] theorem State.logEvent_cfgIdx (e : Event) : (s.logEvent e).cfgIdx = s.cfgIdx := rfl
@[simp] theorem State.logEvent_settleIdx (e : Event) : (s.logEvent e).settleIdx = s.settleIdx := rfl
@[simp] theorem State.logEvent_pollCnt (e : Event) : (s.logEvent e).pollCnt = s.pollCnt := rfl
@[simp] theorem State.logEvent_ctrl (e : Event) : (s.logEvent e).ctrl = s.ctrl := rfl
@[simp] theorem State.logEvent_pollLimit (e : Event) : (s.logEvent e).pollLimit = s.pollLimit := rfl
@[simp] theorem State.logEvent_trace (e : Event) : (s.logEvent e).trace = s.trace ++ [e] := rfl
@[simp] theorem State.logEvent_responses (e : Event) : (s.logEvent e).responses = s.responses := rfl
@[simp] theorem State.logEvent_hostIn (e : Event) : (s.logEvent e).hostIn = s.hostIn := rfl
@[simp] theorem State.logEvent_resetIn (e : Event) : (s.logEvent e).resetIn = s.resetIn := rfl
@[simp] theorem State.logEvent_oracle (e : Event) : (s.logEvent e).oracle = s.oracle := rfl

/-! ### respond -/

@[simp] theorem State.respond_profile (code : ResultCode) (data : List Byte) : (s.respond code data).profile = s.profile := rfl
@[simp] theorem State.respond_addr (code : ResultCode) (data : List Byte) : (s.respond code data).addr = s.addr := rfl
@[simp] theorem State.respond_addrW (code : ResultCode) (data : List Byte) : (s.respond code data).addrW = s.addrW := rfl
@[simp] theorem State.respond_seq (code : ResultCode) (data : List Byte) : (s.respond code data).seq = s.seq := rfl
@[simp] theorem State.respond_seqW (code : ResultCode) (data : List Byte) : (s.respond code data).seqW = s.seqW := rfl
@[simp] theorem State.respond_color (code : ResultCode) (data : List Byte) : (s.respond code data).color = s.color := rfl
@[simp] theorem State.respond_colorW (code : ResultCode) (data : List Byte) : (s.respond code data).colorW = s.colorW := rfl
@[simp] theorem State.respond_fault (code : ResultCode) (data : List Byte) : (s.respond code data).fault = s.fault := rfl
@[simp] theorem State.respond_buPhase (code : ResultCode) (data : List Byte) : (s.respond code data).buPhase = s.buPhase := rfl
@[simp] theorem State.respond_cfgIdx (code : ResultCode) (data : List Byte) : (s.respond code data).cfgIdx = s.cfgIdx := rfl
@[simp] theorem State.respond_settleIdx (code : ResultCode) (data : List Byte) : (s.respond code data).settleIdx = s.settleIdx := rfl
@[simp] theorem State.respond_pollCnt (code : ResultCode) (data : List Byte) : (s.respond code data).pollCnt = s.pollCnt := rfl
@[simp] theorem State.respond_ctrl (code : ResultCode) (data : List Byte) : (s.respond code data).ctrl = s.ctrl := rfl
@[simp] theorem State.respond_pollLimit (code : ResultCode) (data : List Byte) : (s.respond code data).pollLimit = s.pollLimit := rfl
@[simp] theorem State.respond_trace (code : ResultCode) (data : List Byte) : (s.respond code data).trace = s.trace := rfl
@[simp] theorem State.respond_responses (code : ResultCode) (data : List Byte) : (s.respond code data).responses = s.responses ++ [resultByte code :: data] := rfl
@[simp] theorem State.respond_hostIn (code : ResultCode) (data : List Byte) : (s.respond code data).hostIn = s.hostIn := rfl
@[simp] theorem State.respond_resetIn (code : ResultCode) (data : List Byte) : (s.respond code data).resetIn = s.resetIn := rfl
@[simp] theorem State.respond_oracle (code : ResultCode) (data : List Byte) : (s.respond code data).oracle = s.oracle := rfl

/-! ### setHostIn -/

@[simp] theorem State.setHostIn_profile (bs : List Byte) : (s.setHostIn bs).profile = s.profile := rfl
@[simp] theorem State.setHostIn_addr (bs : List Byte) : (s.setHostIn bs).addr = s.addr := rfl
@[simp] theorem State.setHostIn_addrW (bs : List Byte) : (s.setHostIn bs).addrW = s.addrW := rfl
@[simp] theorem State.setHostIn_seq (bs : List Byte) : (s.setHostIn bs).seq = s.seq := rfl
@[simp] theorem State.setHostIn_seqW (bs : List Byte) : (s.setHostIn bs).seqW = s.seqW := rfl
@[simp] theorem State.setHostIn_color (bs : List Byte) : (s.setHostIn bs).color = s.color := rfl
@[simp] theorem State.setHostIn_colorW (bs : List Byte) : (s.setHostIn bs).colorW = s.colorW := rfl
@[simp] theorem State.setHostIn_fault (bs : List Byte) : (s.setHostIn bs).fault = s.fault := rfl
@[simp] theorem State.setHostIn_buPhase (bs : List Byte) : (s.setHostIn bs).buPhase = s.buPhase := rfl
@[simp] theorem State.setHostIn_cfgIdx (bs : List Byte) : (s.setHostIn bs).cfgIdx = s.cfgIdx := rfl
@[simp] theorem State.setHostIn_settleIdx (bs : List Byte) : (s.setHostIn bs).settleIdx = s.settleIdx := rfl
@[simp] theorem State.setHostIn_pollCnt (bs : List Byte) : (s.setHostIn bs).pollCnt = s.pollCnt := rfl
@[simp] theorem State.setHostIn_ctrl (bs : List Byte) : (s.setHostIn bs).ctrl = s.ctrl := rfl
@[simp] theorem State.setHostIn_pollLimit (bs : List Byte) : (s.setHostIn bs).pollLimit = s.pollLimit := rfl
@[simp] theorem State.setHostIn_trace (bs : List Byte) : (s.setHostIn bs).trace = s.trace := rfl
@[simp] theorem State.setHostIn_responses (bs : List Byte) : (s.setHostIn bs).responses = s.responses := rfl
@[simp] theorem State.setHostIn_hostIn (bs : List Byte) : (s.setHostIn bs).hostIn = bs := rfl
@[simp] theorem State.setHostIn_resetIn (bs : List Byte) : (s.setHostIn bs).resetIn = s.resetIn := rfl
@[simp] theorem State.setHostIn_oracle (bs : List Byte) : (s.setHostIn bs).oracle = s.oracle := rfl

/-! ### setOracle -/

@[simp] theorem State.setOracle_profile (o : Oracle) : (s.setOracle o).profile = s.profile := rfl
@[simp] theorem State.setOracle_addr (o : Oracle) : (s.setOracle o).addr = s.addr := rfl
@[simp] theorem State.setOracle_addrW (o : Oracle) : (s.setOracle o).addrW = s.addrW := rfl
@[simp] theorem State.setOracle_seq (o : Oracle) : (s.setOracle o).seq = s.seq := rfl
@[simp] theorem State.setOracle_seqW (o : Oracle) : (s.setOracle o).seqW = s.seqW := rfl
@[simp] theorem State.setOracle_color (o : Oracle) : (s.setOracle o).color = s.color := rfl
@[simp] theorem State.setOracle_colorW (o : Oracle) : (s.setOracle o).colorW = s.colorW := rfl
@[simp] theorem State.setOracle_fault (o : Oracle) : (s.setOracle o).fault = s.fault := rfl
@[simp] theorem State.setOracle_buPhase (o : Oracle) : (s.setOracle o).buPhase = s.buPhase := rfl
@[simp] theorem State.setOracle_cfgIdx (o : Oracle) : (s.setOracle o).cfgIdx = s.cfgIdx := rfl
@[simp] theorem State.setOracle_settleIdx (o : Oracle) : (s.setOracle o).settleIdx = s.settleIdx := rfl
@[simp] theorem State.setOracle_pollCnt (o : Oracle) : (s.setOracle o).pollCnt = s.pollCnt := rfl
@[simp] theorem State.setOracle_ctrl (o : Oracle) : (s.setOracle o).ctrl = s.ctrl := rfl
@[simp] theorem State.setOracle_pollLimit (o : Oracle) : (s.setOracle o).pollLimit = s.pollLimit := rfl
@[simp] theorem State.setOracle_trace (o : Oracle) : (s.setOracle o).trace = s.trace := rfl
@[simp] theorem State.setOracle_responses (o : Oracle) : (s.setOracle o).responses = s.responses := rfl
@[simp] theorem State.setOracle_hostIn (o : Oracle) : (s.setOracle o).hostIn = s.hostIn := rfl
@[simp] theorem State.setOracle_resetIn (o : Oracle) : (s.setOracle o).resetIn = s.resetIn := rfl
@[simp] theorem State.setOracle_oracle (o : Oracle) : (s.setOracle o).oracle = o := rfl

/-! ### afterEvents -/

/-- The state after some events: they stand at the end of TRACE, and the oracle is o. -/
def State.afterEvents (s : State) (evs : List Event) (o : Oracle) : State :=
  { s with trace := s.trace ++ evs, oracle := o }

@[simp] theorem State.afterEvents_profile (evs : List Event) (o : Oracle) : (s.afterEvents evs o).profile = s.profile := rfl
@[simp] theorem State.afterEvents_addr (evs : List Event) (o : Oracle) : (s.afterEvents evs o).addr = s.addr := rfl
@[simp] theorem State.afterEvents_addrW (evs : List Event) (o : Oracle) : (s.afterEvents evs o).addrW = s.addrW := rfl
@[simp] theorem State.afterEvents_seq (evs : List Event) (o : Oracle) : (s.afterEvents evs o).seq = s.seq := rfl
@[simp] theorem State.afterEvents_seqW (evs : List Event) (o : Oracle) : (s.afterEvents evs o).seqW = s.seqW := rfl
@[simp] theorem State.afterEvents_color (evs : List Event) (o : Oracle) : (s.afterEvents evs o).color = s.color := rfl
@[simp] theorem State.afterEvents_colorW (evs : List Event) (o : Oracle) : (s.afterEvents evs o).colorW = s.colorW := rfl
@[simp] theorem State.afterEvents_fault (evs : List Event) (o : Oracle) : (s.afterEvents evs o).fault = s.fault := rfl
@[simp] theorem State.afterEvents_buPhase (evs : List Event) (o : Oracle) : (s.afterEvents evs o).buPhase = s.buPhase := rfl
@[simp] theorem State.afterEvents_cfgIdx (evs : List Event) (o : Oracle) : (s.afterEvents evs o).cfgIdx = s.cfgIdx := rfl
@[simp] theorem State.afterEvents_settleIdx (evs : List Event) (o : Oracle) : (s.afterEvents evs o).settleIdx = s.settleIdx := rfl
@[simp] theorem State.afterEvents_pollCnt (evs : List Event) (o : Oracle) : (s.afterEvents evs o).pollCnt = s.pollCnt := rfl
@[simp] theorem State.afterEvents_ctrl (evs : List Event) (o : Oracle) : (s.afterEvents evs o).ctrl = s.ctrl := rfl
@[simp] theorem State.afterEvents_pollLimit (evs : List Event) (o : Oracle) : (s.afterEvents evs o).pollLimit = s.pollLimit := rfl
@[simp] theorem State.afterEvents_trace (evs : List Event) (o : Oracle) : (s.afterEvents evs o).trace = s.trace ++ evs := rfl
@[simp] theorem State.afterEvents_responses (evs : List Event) (o : Oracle) : (s.afterEvents evs o).responses = s.responses := rfl
@[simp] theorem State.afterEvents_hostIn (evs : List Event) (o : Oracle) : (s.afterEvents evs o).hostIn = s.hostIn := rfl
@[simp] theorem State.afterEvents_resetIn (evs : List Event) (o : Oracle) : (s.afterEvents evs o).resetIn = s.resetIn := rfl
@[simp] theorem State.afterEvents_oracle (evs : List Event) (o : Oracle) : (s.afterEvents evs o).oracle = o := rfl

@[simp] theorem State.afterEvents_afterEvents (evs evs' : List Event) (o o' : Oracle) :
    (s.afterEvents evs o).afterEvents evs' o' = s.afterEvents (evs ++ evs') o' := by
  simp [State.afterEvents]

@[simp] theorem State.logEvent_setOracle (e : Event) (o : Oracle) :
    (s.setOracle o).logEvent e = s.afterEvents [e] o := rfl

theorem State.setOracle_eq_afterEvents (o : Oracle) : s.setOracle o = s.afterEvents [] o := by
  simp [State.afterEvents, State.setOracle]

/-! ### The oracle after a draw -/

/-- The oracle after an exchange. -/
def Oracle.nextXfer (o : Oracle) : Oracle := { o with xfer := o.xfer.drop 1, draws := o.draws + 1 }

/-- The oracle after an XInit. -/
def Oracle.nextXInit (o : Oracle) : Oracle := { o with xinit := o.xinit.drop 1, draws := o.draws + 1 }

/-- The oracle after an allocation draw. -/
def Oracle.nextAlloc (o : Oracle) : Oracle := { o with alloc := o.alloc.drop 1, draws := o.draws + 1 }

@[simp] theorem Oracle.nextXfer_xfer (o : Oracle) : o.nextXfer.xfer = o.xfer.drop 1 := rfl
@[simp] theorem Oracle.nextXfer_xinit (o : Oracle) : o.nextXfer.xinit = o.xinit := rfl
@[simp] theorem Oracle.nextXfer_alloc (o : Oracle) : o.nextXfer.alloc = o.alloc := rfl
@[simp] theorem Oracle.nextXInit_xfer (o : Oracle) : o.nextXInit.xfer = o.xfer := rfl
@[simp] theorem Oracle.nextXInit_xinit (o : Oracle) : o.nextXInit.xinit = o.xinit.drop 1 := rfl
@[simp] theorem Oracle.nextXInit_alloc (o : Oracle) : o.nextXInit.alloc = o.alloc := rfl
@[simp] theorem Oracle.nextAlloc_xfer (o : Oracle) : o.nextAlloc.xfer = o.xfer := rfl
@[simp] theorem Oracle.nextAlloc_xinit (o : Oracle) : o.nextAlloc.xinit = o.xinit := rfl
@[simp] theorem Oracle.nextAlloc_alloc (o : Oracle) : o.nextAlloc.alloc = o.alloc.drop 1 := rfl

end Sys2Proof.Machine
end

