-- ==== Sys2Proof/Laws/Ops.lean ====
section
/-! SUPPORT. One lemma per shared operation that says once everything it can do, and the laws of the byte frames. -/

namespace Sys2Proof.Machine

open Sys2Proof.Safety

/-! ### Frames -/

theorem opc_write_single (a : Byte) (h : a.toNat < 0x40) : opc .write .single (addrField a) = a := by
  revert a; decide +kernel

theorem opc_read_single (a : Byte) (h : a.toNat < 0x40) : opc .read .single (addrField a) = 0x80 ||| a := by
  revert a; decide +kernel

@[simp] theorem opc_write_single_field (a : RegAddr) : opc .write .single a = a.setWidth 8 := by
  revert a; decide +kernel

@[simp] theorem opc_read_single_field (a : RegAddr) : opc .read .single a = 0x80 ||| a.setWidth 8 := by
  revert a; decide +kernel

@[simp] theorem opc_write_burst_field (a : RegAddr) : opc .write .burst a = 0x40 ||| a.setWidth 8 := by
  revert a; decide +kernel

@[simp] theorem opc_read_burst_field (a : RegAddr) : opc .read .burst a = 0xC0 ||| a.setWidth 8 := by
  revert a; decide +kernel

@[simp] theorem headerRw_opc (rw : Rw) (m : AccessMode) (a : RegAddr) : headerRw (opc rw m a) = rw := by
  revert a; cases rw <;> cases m <;> decide +kernel

@[simp] theorem headerMode_opc (rw : Rw) (m : AccessMode) (a : RegAddr) : headerMode (opc rw m a) = m := by
  revert a; cases rw <;> cases m <;> decide +kernel

@[simp] theorem headerAddr_opc (rw : Rw) (m : AccessMode) (a : RegAddr) : headerAddr (opc rw m a) = a := by
  revert a; cases rw <;> cases m <;> decide +kernel

theorem opc_headerFields (h : Byte) : opc (headerRw h) (headerMode h) (headerAddr h) = h := by
  revert h; decide +kernel

@[simp] theorem addrRefused_iff (a : Byte) : addrRefused a = true ↔ 0x40 ≤ a.toNat := by simp [addrRefused]

@[simp] theorem zeros_length (n : Nat) : (zeros n).length = n := by simp [zeros]

@[simp] theorem frameBurstRead_length (a : RegAddr) (c : Nat) : (frameBurstRead a c).length = c + 1 := by
  simp [frameBurstRead]

/-! ### Draws -/

@[simp] theorem fitBytes_length (n d : Nat) (rx : List Byte) : (fitBytes n d rx).length = n := by simp [fitBytes]

/-- A tape entry of the right length is the answer as it stands. -/
theorem fitBytes_of_length (d : Nat) (rx : List Byte) : fitBytes rx.length d rx = rx := by
  apply List.ext_getElem
  · simp
  · intro k h1 h2
    simp [fitBytes, List.getD_eq_getElem?_getD, h2]

theorem fitOutcome_answers (n d : Nat) (x : XferOutcome) : AnswersBytes n (fitOutcome n d x) := by
  cases x <;> simp [fitOutcome, AnswersBytes]

theorem fitOutcome_of_answers (n d : Nat) (x : XferOutcome) (h : AnswersBytes n x) : fitOutcome n d x = x := by
  cases x with
  | ok rx => simp only [AnswersBytes] at h; subst h; simp [fitOutcome, fitBytes_of_length]
  | fail => rfl

theorem freeXfer_answers (n d : Nat) : AnswersBytes n (freeXfer n d) := by
  unfold freeXfer; split <;> simp [AnswersBytes]

/-- Everything a draw for an exchange does: a valid answer, the tape's where it holds one, and the tape moves on. -/
theorem drawXfer_spec (n : Nat) (o : Oracle) :
    AnswersBytes n (drawXfer n o).1 ∧
    (∀ x, o.xfer[0]? = some x → AnswersBytes n x → (drawXfer n o).1 = x) ∧
    (drawXfer n o).2 = o.nextXfer := by
  unfold drawXfer Oracle.nextXfer
  cases h : o.xfer with
  | nil => simp [freeXfer_answers]
  | cons a rest =>
    refine ⟨fitOutcome_answers _ _ _, ?_, rfl⟩
    rintro x hx ha
    obtain rfl : a = x := by simpa using hx
    exact fitOutcome_of_answers _ _ _ ha

theorem drawXInit_spec (o : Oracle) :
    (∀ x, o.xinit[0]? = some x → (drawXInit o).1 = x) ∧ (drawXInit o).2 = o.nextXInit := by
  unfold drawXInit Oracle.nextXInit
  cases h : o.xinit with
  | nil => simp
  | cons a rest => simp

theorem drawAlloc_spec (o : Oracle) :
    (∀ x, o.alloc[0]? = some x → (drawAlloc o).1 = x) ∧ (drawAlloc o).2 = o.nextAlloc := by
  unfold drawAlloc Oracle.nextAlloc
  cases h : o.alloc with
  | nil => simp
  | cons a rest => simp

/-! ### Primitives -/

/-- Everything an exchange does: a valid answer, one event, and the tape moves on (20_memory.md R62). -/
theorem xfer_cases (tx : List Byte) (s : State) :
    ∃ o, AnswerAt s 0 tx.length o ∧ xfer tx s = (o, s.afterEvents [.xfer tx o] s.oracle.nextXfer) := by
  obtain ⟨h1, h2, h3⟩ := drawXfer_spec tx.length s.oracle
  exact ⟨_, ⟨h1, h2⟩, by simp [xfer, h3]⟩

/-- An exchange whose answer stands on the tape. -/
theorem xfer_of_tape (tx : List Byte) (s : State) (x : XferOutcome) (h : s.oracle.xfer[0]? = some x)
    (hx : AnswersBytes tx.length x) : xfer tx s = (x, s.afterEvents [.xfer tx x] s.oracle.nextXfer) := by
  obtain ⟨o, ho, e⟩ := xfer_cases tx s
  obtain rfl := ho.2 x h hx
  exact e

/-- Everything an `XInit` does (41_bringup.md R171). -/
theorem xinit_cases (s : State) :
    ∃ o, (∀ x, s.oracle.xinit[0]? = some x → o = x) ∧
      xinit s = (o, s.afterEvents [.xinit o] s.oracle.nextXInit) := by
  obtain ⟨h1, h2⟩ := drawXInit_spec s.oracle
  exact ⟨_, h1, by simp [xinit, h2]⟩

/-- Everything an allocation does: its answer, and at most its tape moves on (40_register_access.md R133). -/
theorem alloc_cases (n : Nat) (s : State) :
    ∃ ok o, AllocAnswer s n ok ∧ (o = s.oracle ∨ o = s.oracle.nextAlloc) ∧
      alloc n s = (ok, s.afterEvents [] o) := by
  have hs : s.afterEvents [] s.oracle = s := by simp [State.afterEvents]
  unfold alloc
  split
  · exact ⟨false, s.oracle, ⟨fun _ => rfl, by omega, by omega⟩, .inl rfl, by rw [hs]⟩
  · rename_i h
    split
    · rename_i hm
      obtain ⟨h1, h2⟩ := drawAlloc_spec s.oracle
      refine ⟨_, s.oracle.nextAlloc, ⟨fun hh => absurd hh h, ?_, fun _ _ => h1⟩, .inr rfl, ?_⟩
      · intro _ h'; rw [hm] at h'; cases h'
      · rw [h2, State.setOracle_eq_afterEvents]
    · rename_i hm
      exact ⟨true, s.oracle, ⟨fun hh => absurd hh h, fun _ _ => rfl, fun _ h' => absurd h' hm⟩, .inl rfl, by rw [hs]⟩

/-- After an allocation the exchange tape is where it was. -/
theorem xfer_tape_of_alloc {o : Oracle} {s : State} (h : o = s.oracle ∨ o = s.oracle.nextAlloc) :
    o.xfer = s.oracle.xfer := by
  rcases h with rfl | rfl <;> rfl

/-- The answer byte of an exchange is in the list. -/
theorem rxByte_of_getElem? (rx : List Byte) (k : Nat) (b : Byte) (h : rx[k]? = some b) : rxByte rx k = b := by
  simp [rxByte, List.getD_eq_getElem?_getD, h]

/-! ### Laws of the predicates -/

theorem SameRegisters.refl (s : State) : SameRegisters s s := rfl

@[simp] theorem answersBytes_fail (n : Nat) : AnswersBytes n .fail := trivial

@[simp] theorem answersBytes_ok (n : Nat) (rx : List Byte) : AnswersBytes n (.ok rx) ↔ rx.length = n := Iff.rfl

@[simp] theorem phaseBusy_cases (p : BuPhase) : phaseBusy p = true ↔ p ≠ .uninit ∧ p ≠ .ready ∧ p ≠ .failed := by
  cases p <;> simp [phaseBusy]

end Sys2Proof.Machine
end

