-- ==== Sys2Proof/Laws/RegAccess.lean ====
section
/-! SUPPORT. The inversion lemmas of FIFO_WRITE and FIFO_READ: everything each of them can do (spec/40_register_access.md R137, R138). -/

namespace Sys2Proof.Machine

open Sys2Proof.Safety

theorem frameBurstWrite_eq (a : RegAddr) (p : List Byte) :
    frameBurstWrite a p = (0x40 ||| a.setWidth 8) :: p := by simp [frameBurstWrite]

theorem frameBurstRead_eq (a : RegAddr) (c : Nat) :
    frameBurstRead a c = (0xC0 ||| a.setWidth 8) :: List.replicate c 0x00 := by simp [frameBurstRead, zeros]

/-- An answer to the first exchange after an allocation is an answer to the first exchange from the state before it. -/
theorem answerAt_afterEvents {s : State} {evs : List Event} {o : Oracle} {k j n : Nat} {x : XferOutcome}
    (ho : ∀ i, o.xfer[i]? = s.oracle.xfer[i + j]?) (h : AnswerAt (s.afterEvents evs o) k n x) :
    AnswerAt s (k + j) n x :=
  ⟨h.1, fun y hy ha => h.2 y (by simpa [ho] using hy) ha⟩

/-- Everything FIFO_WRITE can do: one of the runs of R137, and only TRACE and the oracle move. -/
theorem fifoWrite_cases (p : List Byte) (s : State) :
    ∃ r evs o, FifoWriteRun s p (resultByte r) evs ∧
      (r = .ok ∨ r = .allocFail ∨ r = .transferFail) ∧
      fifoWrite p s = (r, s.afterEvents evs o) := by
  obtain ⟨ok, oa, hal, hx, e⟩ := alloc_cases (p.length + 1) s
  have hx := xfer_tape_of_alloc hx
  unfold fifoWrite
  rw [e]
  cases ok with
  | false => exact ⟨.allocFail, [], oa, ⟨false, hal, .inl ⟨rfl, rfl, rfl⟩⟩, by simp, rfl⟩
  | true =>
    simp only [State.afterEvents_profile, frameBurstWrite_eq]
    obtain ⟨o1, h1, e1⟩ := xfer_cases ((0x40 ||| s.profile.fifoAddr.setWidth 8) :: p) (s.afterEvents [] oa)
    have h1' : AnswerAt s 0 (p.length + 1) o1 := answerAt_afterEvents (j := 0) (by simp [hx]) h1
    rw [e1]
    cases o1 with
    | fail =>
      exact ⟨.transferFail, _, _, ⟨true, hal, .inr ⟨rfl, .fail, h1', .inl ⟨rfl, rfl, rfl⟩⟩⟩, by simp,
        by rw [State.afterEvents_afterEvents]; rfl⟩
    | ok rx =>
      simp only [State.afterEvents_afterEvents, State.afterEvents_profile, List.nil_append]
      obtain ⟨o2, h2, e2⟩ := xfer_cases (frameStrobe s.profile.strobes.tx)
        (s.afterEvents [.xfer ((0x40 ||| s.profile.fifoAddr.setWidth 8) :: p) (.ok rx)] oa.nextXfer)
      have h2' : AnswerAt s 1 1 o2 := answerAt_afterEvents (j := 1) (k := 0) (by simp [hx]) h2
      simp only [State.afterEvents_oracle] at e2 ⊢
      rw [e2]
      cases o2 with
      | fail =>
        exact ⟨.transferFail, _, _, ⟨true, hal, .inr ⟨rfl, .ok rx, h1', .inr ⟨by simp, .fail, h2', rfl, rfl⟩⟩⟩, by simp,
          by rw [State.afterEvents_afterEvents]; rfl⟩
      | ok rx2 =>
        exact ⟨.ok, _, _, ⟨true, hal, .inr ⟨rfl, .ok rx, h1', .inr ⟨by simp, .ok rx2, h2', rfl, rfl⟩⟩⟩, by simp,
          by rw [State.afterEvents_afterEvents]; rfl⟩

/-- What FIFO_READ answers, as R138's run: an error code, or the payload whose length is the count byte. -/
def fifoReadResult : Except ResultCode (Byte × List Byte) → Except Byte (List Byte)
  | .error code => .error (resultByte code)
  | .ok (_, p) => .ok p

/-- Everything FIFO_READ can do: one of the runs of R138, the count byte is the payload's length, and only TRACE and the
oracle move. -/
theorem fifoRead_cases (s : State) :
    ∃ r evs o, FifoReadRun s (fifoReadResult r) evs ∧
      (∀ c p, r = .ok (c, p) → c = BitVec.ofNat 8 p.length ∧ p.length ≤ 15) ∧
      fifoRead s = (r, s.afterEvents evs o) := by
  obtain ⟨o1, h1, e1⟩ := xfer_cases [0x00] s
  have hp : framePoll = [0x00] := rfl
  unfold fifoRead poll
  rw [hp, e1]
  cases o1 with
  | fail => exact ⟨.error .transferFail, _, _, ⟨.fail, h1, .inl ⟨rfl, rfl, rfl⟩⟩, by simp, rfl⟩
  | ok rx =>
    obtain ⟨sb, rfl⟩ := List.length_eq_one_iff.mp (show rx.length = 1 from h1.1)
    have hc : (sb &&& 0x0F).toNat ≤ 15 := by simpa using Nat.and_le_right (n := sb.toNat) (m := 15)
    have hsb : statusFifoCount (rxByte [sb] 0) = sb &&& 0x0F := rfl
    simp only [hsb]
    obtain ⟨ok, oa, hal, hx, e⟩ := alloc_cases ((sb &&& 0x0F).toNat + 1)
      (s.afterEvents [.xfer [0x00] (.ok [sb])] s.oracle.nextXfer)
    have hx := xfer_tape_of_alloc hx
    rw [e]
    simp only [State.afterEvents_afterEvents, List.append_nil]
    have hal' : AllocAnswer s ((sb &&& 0x0F).toNat + 1) ok := hal
    cases ok with
    | false =>
      exact ⟨.error .allocFail, _, _, ⟨.ok [sb], h1, .inr ⟨sb, false, rfl, hal', .inl ⟨rfl, rfl, rfl⟩⟩⟩, by simp, rfl⟩
    | true =>
      obtain ⟨o2, h2, e2⟩ := xfer_cases (frameBurstRead s.profile.fifoAddr (sb &&& 0x0F).toNat)
        (s.afterEvents [.xfer [0x00] (.ok [sb])] oa)
      have h2' : AnswerAt s 1 ((sb &&& 0x0F).toNat + 1) o2 := by
        have := answerAt_afterEvents (j := 1) (k := 0) (by simp [hx]) h2
        simpa using this
      simp only [State.afterEvents_profile]
      rw [e2]
      cases o2 with
      | fail =>
        refine ⟨.error .transferFail, _, oa.nextXfer,
          ⟨.ok [sb], h1, .inr ⟨sb, true, rfl, hal', .inr ⟨rfl, .fail, h2', rfl, .inl ⟨rfl, rfl⟩⟩⟩⟩, by simp, ?_⟩
        rw [State.afterEvents_afterEvents, frameBurstRead_eq]; rfl
      | ok rx2 =>
        obtain ⟨echo, p, rfl⟩ := List.exists_cons_of_length_eq_add_one (show rx2.length = (sb &&& 0x0F).toNat + 1 from h2'.1)
        have hl : p.length = (sb &&& 0x0F).toNat := Nat.succ.inj (show (echo :: p).length = _ from h2'.1)
        refine ⟨.ok (sb &&& 0x0F, p), _, oa.nextXfer,
          ⟨.ok [sb], h1, .inr ⟨sb, true, rfl, hal', .inr ⟨rfl, .ok (echo :: p), h2', rfl, .inr ⟨echo, p, rfl, hl, rfl⟩⟩⟩⟩, ?_, ?_⟩
        · rintro c q hcq
          simp only [Except.ok.injEq, Prod.mk.injEq] at hcq
          obtain ⟨rfl, rfl⟩ := hcq
          exact ⟨by rw [hl]; simp, by omega⟩
        · rw [State.afterEvents_afterEvents, frameBurstRead_eq]; rfl

end Sys2Proof.Machine
end

