-- ==== Sys2Proof/Laws/Exec.lean ====
section
/-! SUPPORT. The inversion lemmas of exec: everything a wire form, INIT or another host operation can do to the state. -/

namespace Sys2Proof.Machine

open Sys2Proof.Safety

/-- Everything a wire exchange does (spec/30_encoding.md R94). -/
theorem wireExchange_cases (tx : List Byte) (s : State) :
    ∃ o, AnswerAt s 0 tx.length o ∧
      wireExchange tx s = .next (s.afterEvents [.xfer tx o] s.oracle.nextXfer) := by
  obtain ⟨o, h, e⟩ := xfer_cases tx s
  exact ⟨o, h, by simp only [wireExchange, e]⟩

/-- A strobe's wire form is the exchange of its code where the profile has one. -/
theorem wireStrobeExchange_of_code {st : Strobe} {s : State} {code : Byte} (h : strobeCode s.profile st = some code) :
    wireStrobeExchange st s = wireExchange [code] s := by
  simp [wireStrobeExchange, h, frameStrobe]

/-- A wire form is the exchange of its own bytes, where it has any. -/
theorem exec_wire (i : Instr) (s : State) (hw : i.isWire = true) (he : encode s.profile i ≠ []) :
    exec i s = wireExchange (encode s.profile i) s := by
  have strobe : ∀ st, strobeBytes s.profile st ≠ [] →
      wireStrobeExchange st s = wireExchange (strobeBytes s.profile st) s := by
    intro st h
    cases hc : strobeCode s.profile st with
    | none => simp [strobeBytes, hc] at h
    | some code => rw [wireStrobeExchange_of_code hc]; simp [strobeBytes, hc]
  cases i <;> first | exact absurd hw Bool.false_ne_true | exact strobe _ he | rfl

/-- Everything an `INIT` does in its first step (spec/41_bringup.md R171, R179). -/
theorem execInit_cases (s : State) :
    ∃ o, (∀ x, s.oracle.xinit[0]? = some x → o = x) ∧
      execInit s = .next (match o with
        | .ok => (s.afterEvents [.xinit o] s.oracle.nextXInit).setPhase .reset
        | .openFail => ((s.afterEvents [.xinit o] s.oracle.nextXInit).setPhase .failed).respond .transportOpenFail []
        | .configFail =>
          ((s.afterEvents [.xinit o] s.oracle.nextXInit).setPhase .failed).respond .transportConfigFail []) := by
  obtain ⟨o, h, e⟩ := xinit_cases (s.setPhase .xportInit)
  refine ⟨o, h, ?_⟩
  simp only [execInit, phaseXportInit, e]
  cases o <;> rfl

/-- What a host operation other than INIT may do to the registers, beside its events and its response. -/
inductive RegisterEffect (i : Instr) (s : State) : ResultCode → State → Prop where
  /-- No register is written. -/
  | same (code : ResultCode) (h : code ≠ .fault) : RegisterEffect i s code s
  /-- SEND and its pseudo-operations move SEQ on, which is written then (R215). -/
  | advance (code : ResultCode) (h : code ≠ .fault) (hs : (sendOperands i).isSome = true) (hw : s.seqW = true) :
      RegisterEffect i s code s.advanceSeq
  | wrAddr (a : Address) (h : i = .wrAddr a) : RegisterEffect i s .ok (s.writeAddr a)
  | wrSeq (v : Byte) (h : i = .wrSeq v) : RegisterEffect i s .ok (s.writeSeq v)
  | wrColor (c : Color) (h : i = .wrColor c) : RegisterEffect i s .ok (s.writeColor c)
  | wrCtrl (v : Byte) (h : i = .wrCtrl v) : RegisterEffect i s .ok (s.writeCtrl v)
  | wrPollLimit (l : BitVec 32) (h : i = .wrPollLimit l) : RegisterEffect i s .ok (s.setPollLimit l)

/-- What a host operation other than INIT may do as a whole: it faults and does nothing else, or it makes at most two
exchanges, writes what `RegisterEffect` allows, and answers. -/
def HostEffect (i : Instr) (s t : State) : Prop :=
  (∃ b, t = (s.setFaultBit b).respond .fault []) ∨
  ∃ code data evs o r, RegisterEffect i s code r ∧ evs.length ≤ 2 ∧ t = (r.afterEvents evs o).respond code data

theorem HostEffect.reply {i : Instr} {s : State} (code : ResultCode) (data : List Byte) (h : code ≠ .fault) :
    HostEffect i s (answer ((code, data), s)) :=
  .inr ⟨code, data, [], s.oracle, s, .same code h, by simp, by simp [answer, State.afterEvents]⟩

theorem HostEffect.events {i : Instr} {s : State} (code : ResultCode) (data : List Byte) (evs : List Event) (o : Oracle)
    (h : code ≠ .fault) (hl : evs.length ≤ 2) : HostEffect i s (answer ((code, data), s.afterEvents evs o)) :=
  .inr ⟨code, data, evs, o, s, .same code h, hl, rfl⟩

theorem HostEffect.write {i : Instr} {s r : State} (h : RegisterEffect i s .ok r) : HostEffect i s (answer ((.ok, []), r)) :=
  .inr ⟨.ok, [], [], r.oracle, r, h, by simp, by simp [answer, State.afterEvents]⟩

theorem HostEffect.fault {i : Instr} {s : State} (b : FaultBit) : HostEffect i s (answer (raiseFault b s)) := .inl ⟨b, rfl⟩

theorem setReg_effect (i : Instr) (a v : Byte) (s : State) : HostEffect i s (answer (setReg a v s)) := by
  unfold setReg
  split
  · exact .reply _ _ (by simp)
  · obtain ⟨o, -, e⟩ := xfer_cases (frameSingleWrite (addrField a) v) s
    rw [e]
    cases o <;> exact .events _ _ _ _ (by simp) (by simp)

theorem getReg_effect (i : Instr) (a : Byte) (s : State) : HostEffect i s (answer (getReg a s)) := by
  unfold getReg
  split
  · exact .reply _ _ (by simp)
  · obtain ⟨o, -, e⟩ := xfer_cases (frameSingleRead (addrField a)) s
    rw [e]
    cases o <;> exact .events _ _ _ _ (by simp) (by simp)

theorem strobe_effect (i : Instr) (sel : Byte) (s : State) : HostEffect i s (answer (strobe sel s)) := by
  unfold strobe
  split
  · exact .reply _ _ (by simp)
  · rename_i code _
    obtain ⟨o, -, e⟩ := xfer_cases (frameStrobe code) s
    rw [e]
    cases o <;> exact .events _ _ _ _ (by simp) (by simp)

/-- A run of FIFO_WRITE makes at most two exchanges. -/
theorem fifoWriteRun_length {s : State} {p : List Byte} {code : Byte} {evs : List Event}
    (h : FifoWriteRun s p code evs) : evs.length ≤ 2 := by
  obtain ⟨_, -, ⟨-, -, rfl⟩ | ⟨-, _, -, ⟨-, -, rfl⟩ | ⟨-, _, -, -, rfl⟩⟩⟩ := h <;> simp

/-- A run of FIFO_READ makes at most two exchanges. -/
theorem fifoReadRun_length {s : State} {r : Except Byte (List Byte)} {evs : List Event}
    (h : FifoReadRun s r evs) : evs.length ≤ 2 := by
  obtain ⟨_, -, ⟨-, -, rfl⟩ | ⟨_, _, -, -, ⟨-, -, rfl⟩ | ⟨-, _, -, rfl, -⟩⟩⟩ := h <;> simp

theorem fifoWrite_effect (i : Instr) (p : List Byte) (s : State) :
    HostEffect i s (answer (fifoWriteReply (fifoWrite p s))) := by
  obtain ⟨r, evs, o, h, hr, e⟩ := fifoWrite_cases p s
  rw [e]
  exact .events _ _ _ _ (by rcases hr with rfl | rfl | rfl <;> simp) (fifoWriteRun_length h)

/-- The error codes of FIFO_READ. -/
theorem fifoRead_error {s s' : State} {code : ResultCode} (h : fifoRead s = (.error code, s')) :
    code = .transferFail ∨ code = .allocFail := by
  unfold fifoRead at h
  split at h
  · simp_all
  · split at h
    · simp_all
    · split at h <;> simp_all

theorem fifoRead_effect (i : Instr) (s : State) : HostEffect i s (answer (fifoReadReply (fifoRead s))) := by
  obtain ⟨r, evs, o, h, -, e⟩ := fifoRead_cases s
  rw [e]
  cases r with
  | error code => exact .events _ _ _ _ (by rcases fifoRead_error e with rfl | rfl <;> simp) (fifoReadRun_length h)
  | ok q => exact .events _ _ _ _ (by simp) (fifoReadRun_length h)

/-- The frame checks: one of three replies. -/
theorem parseFrame_cases (b d : List Byte) :
    ∃ code data, (code = .ok ∨ code = .frameLength ∨ code = .framePreamble) ∧
      ∀ s : State, parseFrame b d s = ((code, data), s) := by
  unfold parseFrame raiseError returnOk
  by_cases h1 : b.length ≠ packetLength
  · exact ⟨.frameLength, d, by simp, fun s => by rw [if_pos h1]⟩
  · by_cases h2 : b.head? ≠ some preamble
    · exact ⟨.framePreamble, d, by simp, fun s => by rw [if_neg h1, if_pos h2]⟩
    · exact ⟨.ok, b.drop 1, by simp, fun s => by rw [if_neg h1, if_neg h2]⟩

theorem parse_effect (i : Instr) (b : List Byte) (s : State) : HostEffect i s (answer (parse b s)) := by
  obtain ⟨code, data, hc, e⟩ := parseFrame_cases b []
  rw [parse, e]
  exact .reply _ _ (by rcases hc with rfl | rfl | rfl <;> simp)

theorem recvPacket_effect (i : Instr) (s : State) : HostEffect i s (answer (recvPacket s)) := by
  obtain ⟨r, evs, o, h, -, e⟩ := fifoRead_cases s
  unfold recvPacket
  rw [e]
  cases r with
  | error code => exact .events _ _ _ _ (by rcases fifoRead_error e with rfl | rfl <;> simp) (fifoReadRun_length h)
  | ok q =>
    obtain ⟨code, data, hc, e'⟩ := parseFrame_cases q.2 (q.1 :: q.2)
    simp only [e']
    exact .events _ _ _ _ (by rcases hc with rfl | rfl | rfl <;> simp) (fifoReadRun_length h)

theorem build_effect (i : Instr) (cmd cf : Byte) (c : Color) (s : State) : HostEffect i s (answer (build cmd cf c s)) := by
  unfold build
  split
  · exact .reply _ _ (by simp)
  · split
    · exact .fault _
    · exact .reply _ _ (by simp)

/-- A packet is built only when SEQ is written. -/
theorem seqW_of_buildPacket {cmd cf : Byte} {c : Color} {s : State} {p : List Byte}
    (h : buildPacket cmd cf c s = .ok p) : s.seqW = true := by
  unfold buildPacket at h
  split at h
  · split at h
    · assumption
    · cases h
  · cases h

theorem send_effect (i : Instr) (cmd cf : Byte) (c : Color) (s : State) (hi : (sendOperands i).isSome = true) :
    HostEffect i s (answer (send cmd cf c s)) := by
  unfold send
  split
  · exact .reply _ _ (by simp)
  · split
    · exact .fault _
    · rename_i p hp
      obtain ⟨r, evs, o, h, hr, e⟩ := fifoWrite_cases p s
      have hf : r ≠ .fault := by rcases hr with rfl | rfl | rfl <;> simp
      rw [e]
      unfold sendReply seqAdvance
      split
      · split
        · exact .inr ⟨r, [], evs, o, _, .advance r hf hi (seqW_of_buildPacket hp), (fifoWriteRun_length h), rfl⟩
        · exact .events _ _ _ _ hf (fifoWriteRun_length h)
      · exact .inr ⟨r, [], evs, o, _, .advance r hf hi (seqW_of_buildPacket hp), (fifoWriteRun_length h), rfl⟩

theorem readWritten_effect (i : Instr) (w : Bool) (b : FaultBit) (data : List Byte) (s : State) :
    HostEffect i s (answer (readWritten w b data s)) := by
  unfold readWritten
  split
  · exact .reply _ _ (by simp)
  · exact .fault _

/-- Everything a host operation other than INIT does: it completes, with `HostEffect`. -/
theorem exec_host_cases (i : Instr) (s : State) (hw : i.isWire = false) (hi : i ≠ .init) :
    ∃ t, exec i s = .next t ∧ HostEffect i s t := by
  cases i with
  | init => exact absurd rfl hi
  | setReg a v => exact ⟨_, rfl, setReg_effect _ a v s⟩
  | getReg a => exact ⟨_, rfl, getReg_effect _ a s⟩
  | strobe sel => exact ⟨_, rfl, strobe_effect _ sel s⟩
  | fifoWrite p => exact ⟨_, rfl, fifoWrite_effect _ p s⟩
  | fifoRead => exact ⟨_, rfl, fifoRead_effect _ s⟩
  | build cmd cf c => exact ⟨_, rfl, build_effect _ cmd cf c s⟩
  | send cmd cf c => exact ⟨_, rfl, send_effect _ cmd cf c s rfl⟩
  | turnOn => exact ⟨_, rfl, send_effect _ _ _ _ s rfl⟩
  | turnOff => exact ⟨_, rfl, send_effect _ _ _ _ s rfl⟩
  | setColor c => exact ⟨_, rfl, send_effect _ _ _ _ s rfl⟩
  | learn m d => exact ⟨_, rfl, .reply _ _ (by simp)⟩
  | parse b => exact ⟨_, rfl, parse_effect _ b s⟩
  | recvPacket => exact ⟨_, rfl, recvPacket_effect _ s⟩
  | rgbToHsi r g b => exact ⟨_, rfl, .reply _ _ (by simp)⟩
  | wrAddr a => exact ⟨_, rfl, .write (.wrAddr a rfl)⟩
  | rdAddr => exact ⟨_, rfl, readWritten_effect _ _ _ _ s⟩
  | wrSeq v => exact ⟨_, rfl, .write (.wrSeq v rfl)⟩
  | rdSeq => exact ⟨_, rfl, readWritten_effect _ _ _ _ s⟩
  | wrColor c => exact ⟨_, rfl, .write (.wrColor c rfl)⟩
  | rdColor => exact ⟨_, rfl, readWritten_effect _ _ _ _ s⟩
  | wrCtrl v => exact ⟨_, rfl, .write (.wrCtrl v rfl)⟩
  | rdCtrl => exact ⟨_, rfl, .reply _ _ (by simp)⟩
  | wrPollLimit l => exact ⟨_, rfl, .write (.wrPollLimit l rfl)⟩
  | rdPollLimit => exact ⟨_, rfl, .reply _ _ (by simp)⟩
  | rdFault => exact ⟨_, rfl, .reply _ _ (by simp)⟩
  | rdBustate => exact ⟨_, rfl, .reply _ _ (by simp)⟩
  | _ => exact absurd hw (by simp [Instr.isWire])

end Sys2Proof.Machine
end

