-- ==== Sys2Proof/Laws/Step.lean ====
section
/-! SUPPORT. The inversion lemmas of the step: everything one step of a running INIT, or of the machine, can do. -/

namespace Sys2Proof.Machine

open Sys2Proof.Safety

/-! ### A running INIT -/

/-- What a running INIT does with the answer to its exchange, from the state with that exchange logged (spec/41_bringup.md
R172 to R177). -/
def bringUpNext (s : State) : XferOutcome → State
  | .fail => failInit .transferFail [] s
  | .ok rx =>
    match s.buPhase with
    | .reset => startPoll .readyPoll s
    | .readyPoll =>
      if statusNotReady (rxByte rx 0) then pollAgain (s.setPollCnt (s.pollCnt + 1))
      else startPoll .idPoll (s.setPollCnt (s.pollCnt + 1))
    | .idPoll =>
      if statusNotReady (rxByte rx 0) then pollAgain (s.setPollCnt (s.pollCnt + 1))
      else identityCheck (rxByte rx 1) (s.setPollCnt (s.pollCnt + 1))
    | .config => nextEntry s
    | .settle => nextSettle s
    | _ => s

/-- The state after one exchange of these bytes, answered o. -/
def State.exchanged (s : State) (tx : List Byte) (o : XferOutcome) : State :=
  s.afterEvents [.xfer tx o] s.oracle.nextXfer

/-- A running INIT with a wire form due makes its exchange and goes on with the answer. -/
theorem bringUpStep_form {s : State} {i : Instr} (h : bringUpForm s = some i) :
    ∃ o, AnswerAt s 0 (encode s.profile i).length o ∧
      bringUpStep s = bringUpNext (s.exchanged (encode s.profile i) o) o := by
  cases hp : s.buPhase <;> simp only [bringUpForm, hp, reduceCtorEq] at h
  case reset =>
    obtain rfl := Option.some.inj h
    obtain ⟨o, ho, e⟩ := xfer_cases (frameStrobe s.profile.strobes.reset) s
    refine ⟨o, ho, ?_⟩
    simp only [bringUpStep, hp, phaseReset, e]
    cases o <;> simp only [bringUpNext, State.exchanged, State.afterEvents_buPhase, hp] <;> rfl
  case readyPoll =>
    obtain rfl := Option.some.inj h
    obtain ⟨o, ho, e⟩ := xfer_cases framePoll s
    refine ⟨o, ho, ?_⟩
    simp only [bringUpStep, hp, phaseReadyPoll, poll, e]
    cases o <;> simp only [bringUpNext, State.exchanged, State.afterEvents_buPhase, hp] <;> rfl
  case idPoll =>
    obtain rfl := Option.some.inj h
    obtain ⟨o, ho, e⟩ := xfer_cases (frameBurstRead s.profile.idRegAddr 1) s
    refine ⟨o, ho, ?_⟩
    simp only [bringUpStep, hp, phaseIdPoll, statusRead, e]
    cases o <;> simp only [bringUpNext, State.exchanged, State.afterEvents_buPhase, hp] <;> rfl
  case config =>
    cases he : s.profile.configTable[s.cfgIdx]? with
    | none => simp [he] at h
    | some p =>
      obtain rfl := Option.some.inj (by simpa [he] using h)
      obtain ⟨o, ho, e⟩ := xfer_cases (frameSingleWrite p.1 p.2) s
      refine ⟨o, ho, ?_⟩
      simp only [bringUpStep, hp, phaseConfig, he, e]
      cases o <;> simp only [bringUpNext, State.exchanged, State.afterEvents_buPhase, hp] <;> rfl
  case settle =>
    have hi : s.settleIdx < 4 := by
      by_contra hc
      rw [List.getElem?_eq_none (by simpa using hc)] at h
      cases h
    obtain ⟨code, hc, he⟩ : ∃ code, (settleCodes s.profile)[s.settleIdx]? = some code ∧ encode s.profile i = [code] := by
      match hk : s.settleIdx, hi with
      | 0, _ => exact ⟨_, rfl, by obtain rfl := Option.some.inj (by simpa [hk] using h); rfl⟩
      | 1, _ => exact ⟨_, rfl, by obtain rfl := Option.some.inj (by simpa [hk] using h); rfl⟩
      | 2, _ => exact ⟨_, rfl, by obtain rfl := Option.some.inj (by simpa [hk] using h); rfl⟩
      | 3, _ => exact ⟨_, rfl, by obtain rfl := Option.some.inj (by simpa [hk] using h); rfl⟩
    obtain ⟨o, ho, e⟩ := xfer_cases (frameStrobe code) s
    refine ⟨o, by rw [he]; exact ho, ?_⟩
    simp only [bringUpStep, hp, phaseSettle, hc, e, he]
    cases o <;> simp only [bringUpNext, State.exchanged, State.afterEvents_buPhase, hp] <;> rfl

/-- The phases in which a running INIT has no wire form due. -/
theorem bringUpStep_noForm {s : State} (hb : s.busy = true) (h : bringUpForm s = none) :
    (s.buPhase = .xportInit ∧ bringUpStep s = phaseXportInit s) ∨
    (s.buPhase = .config ∧ s.profile.configTable.length ≤ s.cfgIdx ∧ bringUpStep s = startSettle s) ∨
    (s.buPhase = .settle ∧ 4 ≤ s.settleIdx ∧ bringUpStep s = completeInit s) := by
  cases hp : s.buPhase <;> simp only [bringUpForm, hp, reduceCtorEq] at h <;>
    simp [State.busy, hp] at hb ⊢
  case xportInit => simp [bringUpStep, hp]
  case config =>
    have he : s.profile.configTable[s.cfgIdx]? = none := by simpa using h
    exact ⟨by simpa using he, by simp [bringUpStep, hp, phaseConfig, he]⟩
  case settle =>
    have hi : 4 ≤ s.settleIdx := by simpa using h
    refine ⟨hi, ?_⟩
    have he : (settleCodes s.profile)[s.settleIdx]? = none := by simpa [settleCodes] using hi
    simp [bringUpStep, hp, phaseSettle, he]

/-! ### The decoder reads host operations only -/

theorem decodeOperands_isWire {op : HostOp} {bs rest : List Byte} {i : Instr}
    (h : decodeOperands op bs = some (i, rest)) : i.isWire = false := by
  revert h
  cases op <;> unfold decodeOperands <;> intro h <;> split at h <;> try simp_all
  all_goals first
    | (obtain ⟨rfl, -⟩ := h; rfl)
    | (obtain ⟨-, rfl, -⟩ := h; rfl)

theorem decode_isWire {bs rest : List Byte} {i : Instr} (h : decode bs = .instr i rest) : i.isWire = false := by
  unfold decode at h
  split at h
  · cases h
  · split at h
    · cases h
    · split at h
      · rename_i he
        injection h with h1 h2
        subst h1
        exact decodeOperands_isWire he
      · cases h

/-! ### The step -/

/-- Everything a step that answers a next state can be (spec/30_encoding.md R101, R105, 70_reset_and_hazards.md R350). -/
theorem step_cases {s t : State} (h : step s = .next t) :
    profileWf s.profile = true ∧
    ((s.resetIn = true ∧ t = blockReset s) ∨
     (s.resetIn = false ∧ s.busy = true ∧ t = bringUpStep s) ∨
     (s.resetIn = false ∧ s.busy = false ∧
       ((∃ i rest, decode s.hostIn = .instr i rest ∧ i.isWire = false ∧ exec i (s.setHostIn rest) = .next t) ∨
        (∃ b rest, decode s.hostIn = .unassignedCode b rest ∧ t = illegalCommand (s.setHostIn rest))))) := by
  unfold step at h
  split at h
  · rename_i hp
    refine ⟨hp, ?_⟩
    unfold legalStep at h
    split at h
    · rename_i hr
      exact .inl ⟨hr, by injection h with h; exact h.symm⟩
    · rename_i hr
      have hr : s.resetIn = false := by simpa using hr
      split at h
      · rename_i hb
        exact .inr (.inl ⟨hr, hb, by injection h with h; exact h.symm⟩)
      · rename_i hb
        refine .inr (.inr ⟨hr, by simpa using hb, ?_⟩)
        unfold runCommand at h
        split at h
        · rename_i i rest hd
          exact .inl ⟨i, rest, hd, decode_isWire hd, h⟩
        · rename_i b rest hd
          exact .inr ⟨b, rest, hd, by injection h with h; exact h.symm⟩
        · unfold waitForHost at h
          split at h <;> cases h
  · cases h

/-- A step of a running INIT. -/
theorem step_busy {s : State} (hp : profileWf s.profile = true) (hr : s.resetIn = false) (hb : s.busy = true) :
    step s = .next (bringUpStep s) := by
  simp [step, legalStep, hp, hr, hb]

/-- A step that runs a host command. -/
theorem step_instr {s : State} {i : Instr} {rest : List Byte} (hp : profileWf s.profile = true) (hr : s.resetIn = false)
    (hb : s.busy = false) (hd : decode s.hostIn = .instr i rest) : step s = exec i (s.setHostIn rest) := by
  simp [step, legalStep, runCommand, hp, hr, hb, hd]

/-- A wire form is due only while an INIT runs. -/
theorem busy_of_bringUpForm {s : State} {i : Instr} (h : bringUpForm s = some i) : s.busy = true := by
  cases hp : s.buPhase <;> simp [bringUpForm, hp] at h <;> simp [State.busy, hp]

/-! ### What a running INIT leaves unchanged -/

theorem failInit_frame (code : ResultCode) (data : List Byte) (s : State) : SameButBringUp s (failInit code data s) := rfl

theorem sameButBringUp_trans {s t u : State} (h : SameButBringUp s t) (h' : SameButBringUp t u) : SameButBringUp s u := by
  unfold SameButBringUp at *
  rw [h', h]

theorem exchanged_frame (s : State) (tx : List Byte) (o : XferOutcome) : SameButBringUp s (s.exchanged tx o) := rfl

theorem pollAgain_frame (s : State) : SameButBringUp s (pollAgain s) := by
  unfold pollAgain; split <;> rfl

theorem identityCheck_frame (v : Byte) (s : State) : SameButBringUp s (identityCheck v s) := by
  unfold identityCheck; split <;> rfl

theorem nextEntry_frame (s : State) : SameButBringUp s (nextEntry s) := by
  unfold nextEntry; split <;> rfl

theorem nextSettle_frame (s : State) : SameButBringUp s (nextSettle s) := by
  unfold nextSettle; split <;> rfl

theorem bringUpNext_frame (s : State) (o : XferOutcome) : SameButBringUp s (bringUpNext s o) := by
  cases o with
  | fail => rfl
  | ok rx =>
    unfold bringUpNext
    simp only
    split
    · rfl
    · split
      · exact sameButBringUp_trans (t := s.setPollCnt (s.pollCnt + 1)) rfl (pollAgain_frame _)
      · rfl
    · split
      · exact sameButBringUp_trans (t := s.setPollCnt (s.pollCnt + 1)) rfl (pollAgain_frame _)
      · exact sameButBringUp_trans (t := s.setPollCnt (s.pollCnt + 1)) rfl (identityCheck_frame _ _)
    · exact nextEntry_frame s
    · exact nextSettle_frame s
    · rfl

/-- A step of a running INIT changes nothing but the bring-up registers (spec/41_bringup.md R170). -/
theorem bringUpStep_frame {s : State} (hb : s.busy = true) : SameButBringUp s (bringUpStep s) := by
  cases hf : bringUpForm s with
  | some i =>
    obtain ⟨o, -, e⟩ := bringUpStep_form hf
    rw [e]
    exact sameButBringUp_trans (exchanged_frame s _ o) (bringUpNext_frame _ o)
  | none =>
    obtain ⟨-, e⟩ | ⟨-, -, e⟩ | ⟨-, -, e⟩ := bringUpStep_noForm hb hf <;> rw [e]
    · obtain ⟨o, -, ex⟩ := xinit_cases s
      unfold phaseXportInit
      rw [ex]
      cases o <;> rfl
    · rfl
    · rfl

end Sys2Proof.Machine
end

