-- ==== Sys2Proof/Laws/Hazard.lean ====
section
/-! SUPPORT. The laws of configuration before strobes (spec/70_reset_and_hazards.md R353): how its predicates pass over an
appended list of events, and everything a step shows the observer of R353. -/

namespace Sys2Proof.Safety

open Sys2Proof.Machine

@[simp] theorem entriesApplied_nil (p : Profile) (k : Nat) : entriesApplied p k [] = k := rfl

@[simp] theorem entriesApplied_cons (p : Profile) (k : Nat) (e : Event) (es : List Event) :
    entriesApplied p k (e :: es) = entriesApplied p (entriesAfter p k e) es := rfl

theorem entriesApplied_append (p : Profile) (k : Nat) (es fs : List Event) :
    entriesApplied p k (es ++ fs) = entriesApplied p (entriesApplied p k es) fs := List.foldl_append ..

@[simp] theorem tableBeforeStrobesFrom_nil (p : Profile) (k : Nat) : tableBeforeStrobesFrom p k [] = true := rfl

@[simp] theorem tableBeforeStrobesFrom_cons (p : Profile) (k : Nat) (e : Event) (es : List Event) :
    tableBeforeStrobesFrom p k (e :: es) =
      (strobeAfterTable p k e && tableBeforeStrobesFrom p (entriesAfter p k e) es) := rfl

theorem tableBeforeStrobesFrom_append (p : Profile) (k : Nat) (es fs : List Event) :
    tableBeforeStrobesFrom p k (es ++ fs) =
      (tableBeforeStrobesFrom p k es && tableBeforeStrobesFrom p (entriesApplied p k es) fs) := by
  induction es generalizing k with
  | nil => rfl
  | cons e es ih => simp [ih, Bool.and_assoc]

/-- An event that is no strobe is never too early. -/
theorem strobeAfterTable_of_none {p : Profile} {e : Event} (k : Nat) (h : strobeSent p e = none) :
    strobeAfterTable p k e = true := by simp [strobeAfterTable, h]

/-- RESET is never too early. -/
theorem strobeAfterTable_reset {p : Profile} {e : Event} (k : Nat) (h : strobeSent p e = some p.strobes.reset) :
    strobeAfterTable p k e = true := by simp [strobeAfterTable, h]

/-- After the whole table no strobe is too early. -/
theorem strobeAfterTable_of_le {p : Profile} {k : Nat} (e : Event) (h : p.configTable.length ≤ k) :
    strobeAfterTable p k e = true := by simp [strobeAfterTable, h]

/-- Without a RESET strobe no applied entry is lost. -/
theorem le_entriesAfter {p : Profile} {e : Event} (k : Nat) (h : strobeSent p e ≠ some p.strobes.reset) :
    k ≤ entriesAfter p k e := by
  unfold entriesAfter
  rw [if_neg h]
  split <;> omega

/-- The events of a step, as the observer finds them. -/
theorem drop_trace {s t : State} {evs : List Event} (h : t.trace = s.trace ++ evs) :
    t.trace.drop s.trace.length = evs := by simp [h]

/-- A block reset is a point before the first INIT (R351). -/
theorem watch_next_reset {s : State} (t : State) (w : StrobeWatch) (hr : s.resetIn = true) :
    w.next s t = { w with configured := false } := by simp [StrobeWatch.next, hr]

/-- A step of a running INIT breaks nothing (R353). -/
theorem watch_next_busy {s : State} (t : State) (w : StrobeWatch) (hr : s.resetIn = false) (hb : s.busy = true) :
    w.next s t = { w with configured := configuredByInit s t w.configured } := by simp [StrobeWatch.next, hr, hb]

/-- A step of HOST's with these events. -/
theorem watch_next_host {s t : State} {evs : List Event} (w : StrobeWatch) (hr : s.resetIn = false) (hb : s.busy = false)
    (h : t.trace = s.trace ++ evs) :
    w.next s t =
      { configured := w.configured && !undoesConfiguration s.profile evs
        broken := w.broken || (!w.configured && evs.any fun e => (strobeSent s.profile e).isSome) } := by
  simp [StrobeWatch.next, hr, hb, drop_trace h]

/-- A step that breaks nothing before the table stands applied issues no strobe of HOST's. -/
theorem no_strobe_of_not_broken {s t : State} {evs : List Event} {w : StrobeWatch} (hr : s.resetIn = false)
    (hb : s.busy = false) (h : t.trace = s.trace ++ evs) (hc : w.configured = false) (hn : (w.next s t).broken = false) :
    ∀ e ∈ evs, strobeSent s.profile e = none := by
  rw [watch_next_host w hr hb h] at hn
  simpa [hc] using (Bool.or_eq_false_iff.1 hn).2

end Sys2Proof.Safety
end

