-- ==== Sys2Proof/Laws/HostRun.lean ====
section
/-! SUPPORT. The laws of a run of host commands (spec/60_exceptions.md R335 to R337): a waiting block has no step, so the end of
a run is unique; a run divides at any command; a command that is answered does not hang. -/

namespace Sys2Proof.Safety

open Sys2Proof.Machine

@[simp] theorem issue_hostIn (c : List Byte) (s : State) : (issue c s).hostIn = c := rfl

/-- A step with no byte of a command, or a part of one (R337). -/
theorem step_incomplete {s : State} (hp : profileWf s.profile = true) (hr : s.resetIn = false) (hb : s.busy = false)
    (hd : decode s.hostIn = .incomplete) :
    step s = if s.hostIn = [] then .fault .noCommand else .fault .stuck := by
  simp [step, legalStep, runCommand, waitForHost, hp, hr, hb, hd]

/-- After block reset, the start state of a run where no other is named (R336), the block waits for a command. -/
theorem awaitsHost_blockReset (s : State) : AwaitsHost (blockReset s) := ⟨rfl, rfl, rfl⟩

/-- A block that waits for a command makes no step. -/
theorem no_step_of_awaitsHost {s : State} (h : AwaitsHost s) (t : State) : step s ≠ .next t := by
  obtain ⟨hr, hb, hh⟩ := h
  intro e
  obtain ⟨-, h⟩ := step_cases e
  have hd : decode [] = .incomplete := rfl
  simp [hr, hb, hh, hd] at h

/-- The run of k + 1 steps. -/
theorem run_succ {k : Nat} {s s' : State} (h : step s = .next s') :
    Host.Core.run Sys2Proof.core (k + 1) s = Host.Core.run Sys2Proof.core k s' := by
  have e : Sys2Proof.core.step s = .next s' := h
  simp only [Host.Core.run, e]

/-- What a run of k + 1 steps that ends in a state begins with. -/
theorem run_succ_inv {k : Nat} {s t : State} (h : Host.Core.run Sys2Proof.core (k + 1) s = .next t) :
    ∃ s', step s = .next s' ∧ Host.Core.run Sys2Proof.core k s' = .next t := by
  cases e : Sys2Proof.core.step s with
  | next s' => exact ⟨s', e, (run_succ e).symm.trans h⟩
  | fault r => simp [Host.Core.run, e] at h
  | refused r => simp [Host.Core.run, e] at h

/-- Two runs from one state that end where the block waits end in the same state. -/
theorem run_awaitsHost_unique {j k : Nat} {s t u : State} (ht : Host.Core.run Sys2Proof.core j s = .next t)
    (hu : Host.Core.run Sys2Proof.core k s = .next u) (at' : AwaitsHost t) (au : AwaitsHost u) : t = u := by
  induction j generalizing s k with
  | zero =>
    obtain rfl : s = t := by injection ht
    cases k with
    | zero => injection hu
    | succ k =>
      obtain ⟨s', e, -⟩ := run_succ_inv hu
      exact absurd e (no_step_of_awaitsHost at' s')
  | succ j ih =>
    obtain ⟨s', e, ht⟩ := run_succ_inv ht
    cases k with
    | zero =>
      obtain rfl : s = u := by injection hu
      exact absurd e (no_step_of_awaitsHost au s')
    | succ k =>
      obtain ⟨s'', e', hu⟩ := run_succ_inv hu
      obtain rfl : s' = s'' := by rw [e] at e'; injection e'
      exact ih ht hu

/-- A command has one end at most. -/
theorem answered_unique {c : List Byte} {s t u : State} (ht : Answered c s t) (hu : Answered c s u) : t = u := by
  obtain ⟨-, -, at', j, hj⟩ := ht
  obtain ⟨-, -, au, k, hk⟩ := hu
  exact run_awaitsHost_unique hj hk at' au

/-- A run has one end at most. -/
theorem hostRun_unique {cs : List (List Byte)} {s t u : State} (ht : HostRun cs s t) (hu : HostRun cs s u) : t = u := by
  induction cs generalizing s with
  | nil => exact ht.2.trans hu.2.symm
  | cons c cs ih =>
    obtain ⟨s1, h1, ht⟩ := ht
    obtain ⟨s2, h2, hu⟩ := hu
    obtain rfl := answered_unique h1 h2
    exact ih ht hu

/-- A run starts where the block waits for a command, and ends there. -/
theorem HostRun.awaits {cs : List (List Byte)} {s t : State} (h : HostRun cs s t) : AwaitsHost s ∧ AwaitsHost t := by
  induction cs generalizing s with
  | nil => exact ⟨h.1, h.2 ▸ h.1⟩
  | cons c cs ih =>
    obtain ⟨s1, h1, h⟩ := h
    exact ⟨h1.2.1, (ih h).2⟩

/-- A run divides at any command. -/
theorem hostRun_append {cs ds : List (List Byte)} {s u : State} :
    HostRun (cs ++ ds) s u ↔ ∃ t, HostRun cs s t ∧ HostRun ds t u := by
  induction cs generalizing s with
  | nil =>
    refine ⟨fun h => ⟨s, ⟨HostRun.awaits h |>.1, rfl⟩, h⟩, ?_⟩
    rintro ⟨t, ⟨-, rfl⟩, h⟩
    exact h
  | cons c cs ih =>
    constructor
    · rintro ⟨s1, h1, h⟩
      obtain ⟨t, ht, hu⟩ := ih.1 h
      exact ⟨t, ⟨s1, h1, ht⟩, hu⟩
    · rintro ⟨t, ⟨s1, h1, ht⟩, hu⟩
      exact ⟨s1, h1, ih.2 ⟨t, ht, hu⟩⟩

/-- A command that hangs has no end. -/
theorem not_answered_of_hangs {c : List Byte} {s t : State} (h : Hangs c s) : ¬ Answered c s t := by
  rintro ⟨-, -, ha, k, hk⟩
  obtain ⟨u, hu, hn⟩ := h.2.2 k
  rw [hk] at hu
  injection hu with hu
  exact hn (hu ▸ ha)

/-- A run in which HOST keeps all its duties is a run. -/
theorem DutifulRun.hostRun {cs : List (List Byte)} {s t : State} (h : DutifulRun cs s t) : HostRun cs s t := by
  induction cs generalizing s with
  | nil => exact h
  | cons c cs ih =>
    obtain ⟨-, s1, h1, h⟩ := h
    exact ⟨s1, h1, ih h⟩

/-- A command that completes in one step is answered by it. -/
theorem answered_of_exec {c : List Byte} {i : Instr} {s t : State} (hp : profileWf s.profile = true) (hs : AwaitsHost s)
    (hd : decode c = .instr i []) (he : exec i s = .next t) (ht : AwaitsHost t) : Answered c s t := by
  refine ⟨.inl ⟨i, hd⟩, hs, ht, 1, ?_⟩
  have hset : (issue c s).setHostIn [] = s := by
    obtain ⟨-, -, hh⟩ := hs
    conv_rhs => rw [← show s.setHostIn [] = s by rw [← hh]; rfl]
    rfl
  rw [run_succ ((step_instr (s := issue c s) hp hs.1 hs.2.1 hd).trans (by rw [hset]; exact he))]
  rfl

end Sys2Proof.Safety
end

