-- ==== Sys2Proof/Laws/PerInstr.lean ====
section
/-! SUPPORT. Facts stated once per instruction, one lemma per constructor. -/

namespace Sys2Proof.Laws

/-- The length of a host command (spec/30_encoding.md R103): fixed by the operation code, but for the two counted ones. -/
def commandLength : Instr → Nat
  | .setReg _ _ => 3
  | .getReg _ => 2
  | .strobe _ => 2
  | .fifoWrite p => 2 + p.length
  | .build _ _ _ => 6
  | .send _ _ _ => 6
  | .setColor _ => 4
  | .learn _ _ => 6
  | .parse b => 2 + b.length
  | .rgbToHsi _ _ _ => 4
  | .wrAddr _ => 10
  | .wrSeq _ => 2
  | .wrColor _ => 4
  | .wrCtrl _ => 2
  | .wrPollLimit _ => 5
  | _ => 1

namespace CommandLength

/-- The encoding of a host command has the length of R103's table. -/
def Statement (i : Instr) : Prop := ∀ p, i.isWire = false → (encode p i).length = commandLength i

theorem init : Statement .init := fun _ _ => rfl
theorem setReg (a v : Byte) : Statement (.setReg a v) := fun _ _ => rfl
theorem getReg (a : Byte) : Statement (.getReg a) := fun _ _ => rfl
theorem strobe (sel : Byte) : Statement (.strobe sel) := fun _ _ => rfl
theorem fifoWrite (p : List Byte) : Statement (.fifoWrite p) := fun _ _ => by simp [encode, commandLength, counted]; omega
theorem fifoRead : Statement .fifoRead := fun _ _ => rfl
theorem build (cmd cf : Byte) (c : Color) : Statement (.build cmd cf c) := fun _ _ => rfl
theorem send (cmd cf : Byte) (c : Color) : Statement (.send cmd cf c) := fun _ _ => rfl
theorem turnOn : Statement .turnOn := fun _ _ => rfl
theorem turnOff : Statement .turnOff := fun _ _ => rfl
theorem setColor (c : Color) : Statement (.setColor c) := fun _ _ => rfl
theorem learn (maxAddresses : Byte) (duration : BitVec 32) : Statement (.learn maxAddresses duration) := fun _ _ => rfl
theorem parse (b : List Byte) : Statement (.parse b) := fun _ _ => by simp [encode, commandLength, counted]; omega
theorem recvPacket : Statement .recvPacket := fun _ _ => rfl
theorem rgbToHsi (r g b : Byte) : Statement (.rgbToHsi r g b) := fun _ _ => rfl
theorem wrAddr (a : Address) : Statement (.wrAddr a) := fun _ _ => rfl
theorem rdAddr : Statement .rdAddr := fun _ _ => rfl
theorem wrSeq (v : Byte) : Statement (.wrSeq v) := fun _ _ => rfl
theorem rdSeq : Statement .rdSeq := fun _ _ => rfl
theorem wrColor (c : Color) : Statement (.wrColor c) := fun _ _ => rfl
theorem rdColor : Statement .rdColor := fun _ _ => rfl
theorem wrCtrl (v : Byte) : Statement (.wrCtrl v) := fun _ _ => rfl
theorem rdCtrl : Statement .rdCtrl := fun _ _ => rfl
theorem wrPollLimit (l : BitVec 32) : Statement (.wrPollLimit l) := fun _ _ => rfl
theorem rdPollLimit : Statement .rdPollLimit := fun _ _ => rfl
theorem rdFault : Statement .rdFault := fun _ _ => rfl
theorem rdBustate : Statement .rdBustate := fun _ _ => rfl
theorem wireSingleWrite (a : RegAddr) (v : Byte) : Statement (.wireSingleWrite a v) := fun _ h => by cases h
theorem wireSingleRead (a : RegAddr) : Statement (.wireSingleRead a) := fun _ h => by cases h
theorem wireBurstWrite (a : RegAddr) (p : List Byte) : Statement (.wireBurstWrite a p) := fun _ h => by cases h
theorem wireBurstRead (a : RegAddr) (count : Nat) : Statement (.wireBurstRead a count) := fun _ h => by cases h
theorem wireStatusPoll : Statement .wireStatusPoll := fun _ h => by cases h
theorem wireStrobeReset : Statement .wireStrobeReset := fun _ h => by cases h
theorem wireStrobeFsTxOn : Statement .wireStrobeFsTxOn := fun _ h => by cases h
theorem wireStrobeXtalOff : Statement .wireStrobeXtalOff := fun _ h => by cases h
theorem wireStrobeCalibrate : Statement .wireStrobeCalibrate := fun _ h => by cases h
theorem wireStrobeRx : Statement .wireStrobeRx := fun _ h => by cases h
theorem wireStrobeTx : Statement .wireStrobeTx := fun _ h => by cases h
theorem wireStrobeIdle : Statement .wireStrobeIdle := fun _ h => by cases h
theorem wireStrobePowerDown : Statement .wireStrobePowerDown := fun _ h => by cases h
theorem wireStrobeFlushRx : Statement .wireStrobeFlushRx := fun _ h => by cases h
theorem wireStrobeFlushTx : Statement .wireStrobeFlushTx := fun _ h => by cases h

end CommandLength

end Sys2Proof.Laws
end

