-- ==== Sys2Proof/Tests/Slice0.lean ====
section
/-! SUPPORT. Tests on fixed values taken from spec/95_test_vectors.md and the rules, the smoke test of WellFormed, and for every
obligation with hypotheses a witness that meets them. -/

namespace Sys2Proof.Machine

/-- With these answers of the exchanges, every allocation had and XInit ok. -/
def State.answered (s : State) (xs : List XferOutcome) : State := { s with oracle := ⟨[.ok], xs, [true, true], 0⟩ }

/-- In this phase of a running INIT. -/
def State.inPhase (s : State) (p : BuPhase) : State := { s with buPhase := p }

end Sys2Proof.Machine

namespace Sys2Proof.Tests

open Sys2Proof Sys2Proof.Machine Sys2Proof.Safety

/-! ## Helpers -/

/-- The reference profile with a concrete table. -/
def prof : Profile :=
  { Profile.reference with configTable := (List.range 33).map fun k => (BitVec.ofNat 6 k, BitVec.ofNat 8 (k + 1)) }

/-- The same profile without flush codes. -/
def profNoFlush : Profile := { prof with flushRx := none, flushTx := none }

/-- The state after reset with that profile and these host bytes. -/
def fresh (bs : List Byte) : State := { State.reset with profile := prof, hostIn := bs }

/-- The session of V12: ADDR = 0x11 … 0x19, SEQ = 0x2A, COLOR = (0x80, 0xFF, 0x40). -/
def session (bs : List Byte) : State :=
  { fresh bs with
    addr := ⟨0x11, 0x12, 0x13, 0x14, 0x15, 0x16, 0x17, 0x18, 0x19⟩, addrW := true
    seq := 0x2A, seqW := true
    color := ⟨0x80, 0xFF, 0x40⟩, colorW := true }

/-- The packet of V12's session for ON with the current colour. -/
def packetOn : List Byte := [0x0E, 0x11, 0x12, 0x13, 0x14, 0x15, 0x16, 0x17, 0x18, 0x19, 0x05, 0x2A, 0x80, 0xFF, 0x40]

/-- The responses of an outcome. -/
def responsesOf : Host.Outcome State Fault Refusal → List (List Byte)
  | .next t => t.responses
  | .fault _ => []
  | .refused _ => []

/-- A field of an outcome's next state. -/
def fieldOf {α : Type} (f : State → α) : Host.Outcome State Fault Refusal → Option α
  | .next t => some (f t)
  | .fault _ => none
  | .refused _ => none

/-- The bytes sent in the exchanges of an outcome's TRACE. -/
def sentOf : Host.Outcome State Fault Refusal → List (List Byte)
  | .next t => t.trace.filterMap fun
    | .xfer tx _ => some tx
    | .xinit _ => none
  | .fault _ => []
  | .refused _ => []

section Values

set_option Elab.async false

/-! ## WellFormed refuses each ill-formed term -/

theorem test_wf_strobe_selector_10 : (Instr.strobe 10).wf = false := by decide +kernel
theorem test_wf_fifo_write_256 : (Instr.fifoWrite (List.replicate 256 0)).wf = false := by decide +kernel
theorem test_wf_parse_256 : (Instr.parse (List.replicate 256 0)).wf = false := by decide +kernel
theorem test_wf_build_cmd_4 : (Instr.build 4 0 ⟨0, 0, 0⟩).wf = false := by decide +kernel
theorem test_wf_build_cf_2 : (Instr.build 5 2 ⟨0, 0, 0⟩).wf = false := by decide +kernel
theorem test_wf_send_cmd_0 : (Instr.send 0 0 ⟨0, 0, 0⟩).wf = false := by decide +kernel
theorem test_wf_send_cf_255 : (Instr.send 7 255 ⟨0, 0, 0⟩).wf = false := by decide +kernel
theorem test_wf_burst_write_256 : (Instr.wireBurstWrite 0x3F (List.replicate 256 0)).wf = false := by decide +kernel
theorem test_wf_burst_read_16 : (Instr.wireBurstRead 0x3F 16).wf = false := by decide +kernel
theorem test_wf_accepts : (Instr.strobe 9).wf = true ∧ (Instr.send 3 1 ⟨0, 0, 0⟩).wf = true ∧
    (Instr.fifoWrite (List.replicate 255 0)).wf = true ∧ (Instr.wireBurstRead 0x3F 15).wf = true := by decide +kernel

/-- R8: each condition, broken alone, is refused. -/
theorem test_profile_conditions :
    profileWf prof = true ∧ profileWf profNoFlush = true ∧
    profileWf { prof with pataddr := 0x3F } = false ∧ profileWf { prof with pataddr := 0x2E } = false ∧
    profileWf { prof with fifoAddr := 0x30 } = false ∧ profileWf { prof with fifoAddr := 0x3D } = false ∧
    profileWf { prof with flushRx := some 0x30 } = false ∧ profileWf { prof with flushTx := some 0x40 } = false ∧
    profileWf { prof with strobes := { prof.strobes with reset := 0x00 } } = false ∧
    profileWf { prof with idRegAddr := 0x2F } = false ∧ profileWf { prof with idRegAddr := 0x3E } = false ∧
    profileWf { prof with configTable := [] } = false ∧ profileWf { prof with scratchMax := 15 } = false := by decide +kernel

/-! ## Decoding: every constructor from a word written out from the spec's encoding (R91 to R93, R103, R104) -/

theorem test_decode_register_access :
    decode [0x01] = .instr .init [] ∧
    decode [0x02, 0x0B, 0x0A] = .instr (.setReg 0x0B 0x0A) [] ∧
    decode [0x03, 0x3F] = .instr (.getReg 0x3F) [] ∧
    decode [0x04, 0x09] = .instr (.strobe 9) [] ∧
    decode [0x05, 0x02, 0x01, 0x02] = .instr (.fifoWrite [0x01, 0x02]) [] ∧
    decode [0x06] = .instr .fifoRead [] := by decide +kernel

theorem test_decode_packets :
    decode [0x10, 0x03, 0x01, 0x0A, 0x0B, 0x0C] = .instr (.build 3 1 ⟨0x0A, 0x0B, 0x0C⟩) [] ∧
    decode [0x11, 0x05, 0x00, 0x01, 0x02, 0x03] = .instr (.send 5 0 ⟨1, 2, 3⟩) [] ∧
    decode [0x12] = .instr .turnOn [] ∧
    decode [0x13] = .instr .turnOff [] ∧
    decode [0x14, 0x10, 0x20, 0x30] = .instr (.setColor ⟨0x10, 0x20, 0x30⟩) [] ∧
    decode [0x15, 0x04, 0xE8, 0x03, 0x00, 0x00] = .instr (.learn 4 1000) [] ∧
    decode [0x16, 0x03, 0x0E, 0x01, 0x02] = .instr (.parse [0x0E, 0x01, 0x02]) [] ∧
    decode [0x17] = .instr .recvPacket [] ∧
    decode [0x20, 0xC8, 0x64, 0x32] = .instr (.rgbToHsi 200 100 50) [] := by decide +kernel

theorem test_decode_context :
    decode [0x30, 1, 2, 3, 4, 5, 6, 7, 8, 9] = .instr (.wrAddr ⟨1, 2, 3, 4, 5, 6, 7, 8, 9⟩) [] ∧
    decode [0x31] = .instr .rdAddr [] ∧
    decode [0x32, 0xFF] = .instr (.wrSeq 0xFF) [] ∧
    decode [0x33] = .instr .rdSeq [] ∧
    decode [0x34, 0x80, 0xFF, 0x40] = .instr (.wrColor ⟨0x80, 0xFF, 0x40⟩) [] ∧
    decode [0x35] = .instr .rdColor [] ∧
    decode [0x36, 0xFF] = .instr (.wrCtrl 0xFF) [] ∧
    decode [0x37] = .instr .rdCtrl [] ∧
    decode [0x38, 0x78, 0x56, 0x34, 0x12] = .instr (.wrPollLimit 0x12345678) [] ∧
    decode [0x39] = .instr .rdPollLimit [] ∧
    decode [0x3A] = .instr .rdFault [] ∧
    decode [0x3B] = .instr .rdBustate [] := by decide +kernel

theorem test_decode_wire :
    decodeWire prof [0b00001011, 0x0A] = some (.wireSingleWrite 0x0B 0x0A) ∧
    decodeWire prof [0b10001011, 0x00] = some (.wireSingleRead 0x0B) ∧
    decodeWire prof [0b01111111, 0x01, 0x02] = some (.wireBurstWrite 0x3F [0x01, 0x02]) ∧
    decodeWire prof [0b01111111] = some (.wireBurstWrite 0x3F []) ∧
    decodeWire prof [0b11110000, 0x00] = some (.wireBurstRead 0x30 1) ∧
    decodeWire prof [0x00] = some .wireStatusPoll ∧
    decodeWire prof [0x30] = some .wireStrobeReset ∧
    decodeWire prof [0x31] = some .wireStrobeFsTxOn ∧
    decodeWire prof [0x32] = some .wireStrobeXtalOff ∧
    decodeWire prof [0x33] = some .wireStrobeCalibrate ∧
    decodeWire prof [0x34] = some .wireStrobeRx ∧
    decodeWire prof [0x35] = some .wireStrobeTx ∧
    decodeWire prof [0x36] = some .wireStrobeIdle ∧
    decodeWire prof [0x39] = some .wireStrobePowerDown ∧
    decodeWire prof [0x3A] = some .wireStrobeFlushRx ∧
    decodeWire prof [0x3B] = some .wireStrobeFlushTx := by decide +kernel

/-- No other combination is a transaction (R94); an unassigned operation code is none of R103. -/
theorem test_decode_refuses :
    decodeWire prof [] = none ∧ decodeWire prof [0x37] = none ∧ decodeWire prof [0x0B, 0x0A, 0x00] = none ∧
    decodeWire prof [0x8B, 0x01] = none ∧ decodeWire prof [0xFF, 0x01] = none ∧
    decode [0x07, 0x01] = .unassignedCode 0x07 [0x01] ∧ decode [0x05, 0x02, 0x01] = .incomplete := by decide +kernel

/-- Table words: a host row, and wire rows no host operation code collides with. -/
theorem test_decode_table_word :
    decodeTableWord 8 0x02 = some (.setReg 0 0) ∧ decodeTableWord 8 0x80 = some (.wireSingleRead 0) ∧
    decodeTableWord 8 0x40 = some (.wireBurstWrite 0 []) ∧ decodeTableWord 8 0xC0 = some (.wireBurstRead 0 0) ∧
    decodeTableWord 8 0x00 = some .wireStatusPoll := by decide +kernel

/-! ## V9: illegal commands -/

theorem test_unassigned_code : responsesOf (step (fresh [0x07])) = [[0x0B]] := by decide +kernel
theorem test_strobe_flush_absent :
    responsesOf (step { fresh [0x04, 0x08] with profile := profNoFlush }) = [[0x0B]] := by decide +kernel
theorem test_build_bad_cmd_unwritten :
    responsesOf (step (fresh [0x10, 0x04, 0x00, 0, 0, 0])) = [[0x0B]] ∧
    fieldOf State.fault (step (fresh [0x10, 0x04, 0x00, 0, 0, 0])) = some 0x00 := by decide +kernel
/-- R337: no step, so no response. -/
theorem test_incomplete_waits : fieldOf State.responses (step (fresh [0x02, 0x0B])) = none := by decide +kernel

/-! ## V10: register access -/

theorem test_set_reg : responsesOf (step ((fresh [0x02, 0x0B, 0x0A]).answered [.ok [0xFF, 0xFF]])) = [[0x00]] ∧
    sentOf (step ((fresh [0x02, 0x0B, 0x0A]).answered [.ok [0xFF, 0xFF]])) = [[0x0B, 0x0A]] := by decide +kernel
theorem test_set_reg_refused : responsesOf (step (fresh [0x02, 0x40, 0x01])) = [[0x08]] ∧
    sentOf (step (fresh [0x02, 0x40, 0x01])) = [] := by decide +kernel
theorem test_get_reg : responsesOf (step ((fresh [0x03, 0x00]).answered [.ok [0x80, 0x77]])) = [[0x00, 0x77]] ∧
    sentOf (step ((fresh [0x03, 0x00]).answered [.ok [0x80, 0x77]])) = [[0x80, 0x00]] := by decide +kernel
theorem test_get_reg_fail : responsesOf (step ((fresh [0x03, 0x0B]).answered [.fail])) = [[0x03]] ∧
    sentOf (step ((fresh [0x03, 0x0B]).answered [.fail])) = [[0x8B, 0x00]] := by decide +kernel
theorem test_strobe_power_down : responsesOf (step ((fresh [0x04, 0x07]).answered [.ok [0x0F]])) = [[0x00]] ∧
    sentOf (step ((fresh [0x04, 0x07]).answered [.ok [0x0F]])) = [[0x39]] := by decide +kernel
theorem test_strobe_flush_tx : sentOf (step ((fresh [0x04, 0x09]).answered [.ok [0x0F]])) = [[0x3B]] := by decide +kernel
theorem test_fifo_write :
    responsesOf (step ((fresh [0x05, 0x02, 0x01, 0x02]).answered [.ok [0, 0, 0], .ok [0]])) = [[0x00]] ∧
    sentOf (step ((fresh [0x05, 0x02, 0x01, 0x02]).answered [.ok [0, 0, 0], .ok [0]])) = [[0x7F, 0x01, 0x02], [0x35]] := by decide +kernel
theorem test_fifo_write_fail_no_strobe :
    responsesOf (step ((fresh [0x05, 0x01, 0x01]).answered [.fail])) = [[0x03]] ∧
    sentOf (step ((fresh [0x05, 0x01, 0x01]).answered [.fail])) = [[0x7F, 0x01]] := by decide +kernel
theorem test_fifo_read :
    responsesOf (step ((fresh [0x06]).answered [.ok [0x75], .ok [0x05, 1, 2, 3, 4, 5]])) = [[0x00, 0x05, 1, 2, 3, 4, 5]] ∧
    sentOf (step ((fresh [0x06]).answered [.ok [0x75], .ok [0x05, 1, 2, 3, 4, 5]])) = [[0x00], [0xFF, 0, 0, 0, 0, 0]] := by decide +kernel
theorem test_fifo_read_alloc_fail :
    responsesOf (step { fresh [0x06] with oracle := ⟨[], [.ok [0x03]], [false], 0⟩ }) = [[0x05]] ∧
    sentOf (step { fresh [0x06] with oracle := ⟨[], [.ok [0x03]], [false], 0⟩ }) = [[0x00]] := by decide +kernel

/-! ## V11: bring-up, one step each -/

theorem test_init_open_fail :
    responsesOf (step { fresh [0x01] with oracle := ⟨[.openFail], [], [], 0⟩ }) = [[0x01]] ∧
    fieldOf State.buPhase (step { fresh [0x01] with oracle := ⟨[.openFail], [], [], 0⟩ }) = some .failed := by decide +kernel
theorem test_init_mismatch :
    responsesOf (step (((fresh []).inPhase .idPoll).answered [.ok [0x00, 0x12]])) = [[0x04, 0x12]] ∧
    sentOf (step (((fresh []).inPhase .idPoll).answered [.ok [0x00, 0x12]])) = [[0xF0, 0x00]] := by decide +kernel
theorem test_init_config_entry_5 :
    sentOf (step ({ (fresh []).inPhase .config with cfgIdx := 5 }.answered [.ok [0, 0]])) = [[0x05, 0x06]] ∧
    fieldOf State.cfgIdx (step ({ (fresh []).inPhase .config with cfgIdx := 5 }.answered [.ok [0, 0]])) = some 6 := by decide +kernel
theorem test_init_settle_power_down :
    sentOf (step ({ (fresh []).inPhase .settle with settleIdx := 2 }.answered [.fail])) = [[0x39]] ∧
    responsesOf (step ({ (fresh []).inPhase .settle with settleIdx := 2 }.answered [.fail])) = [[0x03]] := by decide +kernel

/-! ## V12: packets and sends -/

theorem test_build_current_color : responsesOf (step (session [0x10, 0x05, 0x00, 0, 0, 0])) = [0x00 :: packetOn] := by decide +kernel
theorem test_build_unwritten_seq :
    responsesOf (step { session [0x10, 0x05, 0x00, 0, 0, 0] with seqW := false, colorW := false }) = [[0x0C]] ∧
    fieldOf State.fault (step { session [0x10, 0x05, 0x00, 0, 0, 0] with seqW := false, colorW := false }) = some 0x02 := by decide +kernel
theorem test_send_legacy_fail_advances :
    responsesOf (step ((session [0x11, 0x05, 0x00, 0, 0, 0]).answered [.fail])) = [[0x03]] ∧
    fieldOf State.seq (step ((session [0x11, 0x05, 0x00, 0, 0, 0]).answered [.fail])) = some 0x2B := by decide +kernel
theorem test_send_strict_strobe_fail :
    responsesOf (step ({ session [0x11, 0x05, 0x00, 0, 0, 0] with ctrl := 1 }.answered [.ok (zeros 16), .fail])) = [[0x03]] ∧
    fieldOf State.seq (step ({ session [0x11, 0x05, 0x00, 0, 0, 0] with ctrl := 1 }.answered [.ok (zeros 16), .fail]))
      = some 0x2A := by decide +kernel
theorem test_turn_on : sentOf (step ((session [0x12]).answered [.ok (zeros 16), .ok [0]])) = [0x7F :: packetOn, [0x35]] := by decide +kernel
theorem test_turn_on_color_unwritten :
    fieldOf State.fault (step { session [0x12] with colorW := false }) = some 0x04 ∧
    sentOf (step { session [0x12] with colorW := false }) = [] := by decide +kernel
theorem test_turn_off_seq_wraps :
    fieldOf State.seq (step ({ session [0x13] with seq := 0xFF }.answered [.ok (zeros 16), .ok [0]])) = some 0x00 ∧
    sentOf (step ({ session [0x13] with seq := 0xFF }.answered [.ok (zeros 16), .ok [0]])) =
      [[0x7F, 0x0E, 0x11, 0x12, 0x13, 0x14, 0x15, 0x16, 0x17, 0x18, 0x19, 0x07, 0xFF, 0x80, 0xFF, 0x40], [0x35]] := by decide +kernel
theorem test_set_color_keeps_color :
    sentOf (step ((session [0x14, 0x10, 0x20, 0x30]).answered [.ok (zeros 16), .ok [0]])) =
      [[0x7F, 0x0E, 0x11, 0x12, 0x13, 0x14, 0x15, 0x16, 0x17, 0x18, 0x19, 0x03, 0x2A, 0x10, 0x20, 0x30], [0x35]] ∧
    fieldOf State.color (step ((session [0x14, 0x10, 0x20, 0x30]).answered [.ok (zeros 16), .ok [0]])) =
      some ⟨0x80, 0xFF, 0x40⟩ := by decide +kernel
theorem test_learn : responsesOf (step (session [0x15, 0x04, 0xE8, 0x03, 0x00, 0x00])) = [[0x06]] := by decide +kernel

/-! ## V13: parser and receive -/

theorem test_parse : responsesOf (step (fresh (0x16 :: 0x0F :: packetOn))) = [0x00 :: packetOn.drop 1] := by decide +kernel
theorem test_parse_length_first :
    responsesOf (step (fresh (0x16 :: 0x0E :: 0x0F :: zeros 13))) = [[0x09]] ∧
    responsesOf (step (fresh (0x16 :: 0x0F :: 0x0F :: zeros 14))) = [[0x0A]] := by decide +kernel
theorem test_recv_packet :
    responsesOf (step ((fresh [0x17]).answered [.ok [0x0F], .ok (0x55 :: packetOn)])) = [0x00 :: packetOn.drop 1] := by decide +kernel
theorem test_recv_packet_keeps_bytes :
    responsesOf (step ((fresh [0x17]).answered [.ok [0x02], .ok [0x55, 0x0E, 0x01]])) = [[0x09, 0x02, 0x0E, 0x01]] := by decide +kernel

/-! ## V14: colours -/

theorem test_colors_exact :
    rgbToHsi .draw 255 0 0 = [0x00, 0xFF, 0x55] ∧ rgbToHsi .draw 255 0 1 = [0xFF, 0xFF, 0x55] ∧
    rgbToHsi .draw 34 0 81 = [0xBC, 0xFF, 0x26] ∧ rgbToHsi .draw 64 128 255 = [0x9C, 0x91, 0x95] ∧
    rgbToHsi .draw 200 100 50 = [0x0E, 0x92, 0x75] := by decide +kernel
theorem test_colors_binary64 :
    rgbToHsi .binary64 255 255 0 = [0x2B, 0xFF, 0xAA] ∧ rgbToHsi .binary64 255 0 255 = [0xD4, 0xFF, 0xAA] ∧
    rgbToHsi .binary64 8 5 5 = [0x00, 0x2A, 0x06] ∧ rgbToHsi .binary64 1 1 4 = [0xAA, 0x80, 0x02] ∧
    rgbToHsi .binary64 9 9 16 = [0xAA, 0x34, 0x0B] := by decide +kernel

/-! ## V15: context registers -/

theorem test_wr_addr : fieldOf (fun s => s.addr.a8) (step (fresh [0x30, 1, 2, 3, 4, 5, 6, 7, 8, 0x19])) = some 0x19 ∧
    responsesOf (step (fresh [0x30, 1, 2, 3, 4, 5, 6, 7, 8, 0x19])) = [[0x00]] := by decide +kernel
theorem test_rd_addr : responsesOf (step (session [0x31])) =
    [[0x00, 0x11, 0x12, 0x13, 0x14, 0x15, 0x16, 0x17, 0x18, 0x19]] := by decide +kernel
theorem test_rd_addr_unwritten : responsesOf (step (fresh [0x31])) = [[0x0C]] ∧
    fieldOf State.fault (step (fresh [0x31])) = some 0x01 := by decide +kernel
theorem test_wr_seq : fieldOf State.seq (step (fresh [0x32, 0xFF])) = some 0xFF := by decide +kernel
theorem test_rd_seq_unwritten : responsesOf (step (fresh [0x33])) = [[0x0C]] ∧
    fieldOf State.fault (step { fresh [0x33] with fault := 0x01 }) = some 0x03 := by decide +kernel
theorem test_wr_color : fieldOf State.color (step (fresh [0x34, 0x80, 0xFF, 0x40])) = some ⟨0x80, 0xFF, 0x40⟩ := by decide +kernel
theorem test_rd_color : responsesOf (step (session [0x35])) = [[0x00, 0x80, 0xFF, 0x40]] ∧
    fieldOf State.fault (step (fresh [0x35])) = some 0x04 := by decide +kernel
theorem test_wr_ctrl : fieldOf State.ctrl (step (fresh [0x36, 0xFE])) = some 0x00 ∧
    fieldOf State.ctrl (step (fresh [0x36, 0xFF])) = some 0x01 := by decide +kernel
theorem test_rd_ctrl : responsesOf (step (fresh [0x37])) = [[0x00, 0x00]] := by decide +kernel
theorem test_wr_poll_limit : fieldOf State.pollLimit (step (fresh [0x38, 0x78, 0x56, 0x34, 0x12])) = some 0x12345678 := by decide +kernel
theorem test_rd_poll_limit :
    responsesOf (step { fresh [0x39] with pollLimit := 0x12345678 }) = [[0x00, 0x78, 0x56, 0x34, 0x12]] := by decide +kernel
theorem test_rd_fault : responsesOf (step { fresh [0x3A] with fault := 0x03 }) = [[0x00, 0x03]] ∧
    fieldOf State.fault (step { fresh [0x3A] with fault := 0x03 }) = some 0x03 := by decide +kernel
theorem test_rd_bustate : responsesOf (step { fresh [0x3B] with buPhase := .failed }) = [[0x00, 0x08]] ∧
    responsesOf (step (fresh [0x3B])) = [[0x00, 0x00]] := by decide +kernel

/-! ## The wire forms -/

theorem test_wire_access :
    sentOf (exec (.wireSingleWrite 0x0B 0x0A) (fresh [])) = [[0x0B, 0x0A]] ∧
    sentOf (exec (.wireSingleRead 0x3F) (fresh [])) = [[0xBF, 0x00]] ∧
    sentOf (exec (.wireBurstWrite 0x3F [0x01]) (fresh [])) = [[0x7F, 0x01]] ∧
    sentOf (exec (.wireBurstRead 0x3F 2) (fresh [])) = [[0xFF, 0x00, 0x00]] ∧
    sentOf (exec .wireStatusPoll (fresh [])) = [[0x00]] := by decide +kernel
theorem test_wire_strobes :
    [Instr.wireStrobeReset, .wireStrobeFsTxOn, .wireStrobeXtalOff, .wireStrobeCalibrate, .wireStrobeRx, .wireStrobeTx,
      .wireStrobeIdle, .wireStrobePowerDown, .wireStrobeFlushRx, .wireStrobeFlushTx].map (fun i => sentOf (exec i (fresh [])))
      = [[[0x30]], [[0x31]], [[0x32]], [[0x33]], [[0x34]], [[0x35]], [[0x36]], [[0x39]], [[0x3A]], [[0x3B]]] := by decide +kernel

/-! ## Block reset and REFCHIP -/

theorem test_block_reset : fieldOf State.ctrl (step { session [0x02] with ctrl := 1, resetIn := true }) = some 0x00 ∧
    fieldOf State.hostIn (step { session [0x02] with ctrl := 1, resetIn := true }) = some [] ∧
    fieldOf State.addrW (step { session [0x02] with ctrl := 1, resetIn := true }) = some false := by decide +kernel

/-- P6: a RESET strobe answers the status before it and restarts the not-ready count. -/
theorem test_refchip_reset_strobe :
    (refAnswer prof { refDefault with nrdyLeft := 3, resetNrdy := 2 } [0x30]).1 = [0x80] ∧
    (refAnswer prof { refDefault with nrdyLeft := 3, resetNrdy := 2 } [0x30]).2.nrdyLeft = 2 := by decide +kernel
/-- P3: the status counts the queue, and a burst read of the FIFO takes its bytes. -/
theorem test_refchip_fifo :
    refStatus { refDefault with rxq := zeros 15, cstate := .rx } = 0x1F ∧
    (refAnswer prof { refDefault with rxq := [7, 8] } [0xFF, 0, 0, 0]).1 = [0x02, 7, 8, 0] ∧
    (refAnswer prof refDefault [0xF0, 0x00]).1 = [0x00, 0x80] := by decide +kernel
/-- V12: after the data exchange and the TX strobe the packet is on AIR. -/
theorem test_refchip_air :
    (refAnswer prof (refAnswer prof refDefault (0x7F :: packetOn)).2 [0x35]).2.air = [packetOn] := by decide +kernel
/-- R185: an error state is left only by its flush, or by RESET. -/
theorem test_chip_step : chipStep .rxFifoOverflow (.strobe .idle) .idle = false ∧
    chipStep .rxFifoOverflow (.strobe .flushRx) .idle = true ∧ chipStep .txFifoUnderflow (.strobe .flushRx) .idle = false ∧
    chipStep .txFifoUnderflow (.strobe .reset) .idle = true ∧ chipStep .tx .autonomous .idle = true := by decide +kernel
/-- R75: a scripted XInit outcome and a scripted failed exchange change nothing of REFCHIP. -/
theorem test_refchip_scripted :
    [XInitOutcome.ok, .openFail, .configFail].all (fun o =>
      decide (refFollows prof refDefault [.xinit o, .xfer [0x30] .fail, .xfer [0x36] (.ok [0x00])] = some refDefault)) = true ∧
    refFollows prof refDefault [.xinit .configFail, .xfer [0x36] (.ok [0x10])] = none := by decide +kernel

/-! ## The end of a run -/

/-- R337: part of a command is stuck; after the last response there is no step. R335: no set-up duty is kept by a TURN_ON
before INIT, nor by a BUILD with COLOR unwritten. -/
theorem test_no_step :
    step (fresh [0x30, 1, 2]) = .fault .stuck ∧ step (fresh []) = .fault .noCommand ∧
    setUpKept [0x12] (session []) = false ∧ setUpKept [0x12] ((session []).inPhase .ready) = true ∧
    setUpKept [0x10, 0x05, 0x00, 0, 0, 0] { session [] with colorW := false } = false := by
  refine ⟨?_, ?_, by decide +kernel, by decide +kernel, by decide +kernel⟩
  · exact (step_incomplete (by decide +kernel) rfl rfl (by decide +kernel)).trans (if_neg (by decide +kernel))
  · exact (step_incomplete (by decide +kernel) rfl rfl (by decide +kernel)).trans (if_pos rfl)

/-! ## The observer of R353 -/

/-- What the observer remembers after one step. -/
def watched (w : StrobeWatch) (s : State) : Option StrobeWatch := fieldOf (w.next s) (step s)

/-- (a): before the first OK, also after a first INIT that failed in SETTLE, a strobe is breaking; a SET_REG is none. -/
theorem test_watch_before_init :
    watched .start ((fresh [0x04, 0x06]).answered [.ok [0x00]]) = some ⟨false, true⟩ ∧
    watched .start ((fresh [0x05, 0x00]).answered [.ok [0x00], .ok [0x00]]) = some ⟨false, true⟩ ∧
    watched .start ((fresh [0x02, 0x00, 0x01]).answered [.ok [0x00, 0x00]]) = some ⟨false, false⟩ ∧
    watched .start (({ fresh [] with settleIdx := 1 }.inPhase .settle).answered [.fail]) = some ⟨false, false⟩ := by decide +kernel
/-- (b): an INIT that ends at XInit or in CONFIG undoes it, one that ends in SETTLE does not, and OK sets it again. -/
theorem test_watch_failed_init :
    watched ⟨true, false⟩ { (fresh [0x01]).inPhase .ready with oracle := ⟨[.openFail], [], [], 0⟩ } = some ⟨false, false⟩ ∧
    watched ⟨true, false⟩ (({ fresh [] with cfgIdx := 32 }.inPhase .config).answered [.fail]) = some ⟨false, false⟩ ∧
    watched ⟨true, false⟩ (({ fresh [] with settleIdx := 1 }.inPhase .settle).answered [.fail]) = some ⟨true, false⟩ ∧
    watched .start (({ fresh [] with settleIdx := 3 }.inPhase .settle).answered [.ok [0x00]]) = some ⟨true, false⟩ := by decide +kernel
/-- (c): after an OK a strobe is not breaking, and HOST's own RESET undoes it, whatever its answer. -/
theorem test_watch_host_reset :
    watched ⟨true, false⟩ ((fresh [0x04, 0x06]).answered [.ok [0x00]]) = some ⟨true, false⟩ ∧
    watched ⟨true, false⟩ ((fresh [0x04, 0x00]).answered [.ok [0x00]]) = some ⟨false, false⟩ ∧
    watched ⟨true, false⟩ ((fresh [0x04, 0x00]).answered [.fail]) = some ⟨false, false⟩ := by decide +kernel

/-- 0.1 is 0x1.999999999999a * 2^-4 in binary64 (IEEE 754). -/
theorem test_nearest_binary64 : NearestBinary64 (1 / 10) (0x1999999999999a * 2 ^ (-56 : ℤ)) := by
  refine .inr ⟨-4, 0x1999999999999a, ?_⟩
  norm_num [abs_le, abs_eq]

end Values

/-! ## Witnesses: states and operands that meet the hypotheses of the obligations, at the boundaries of their ranges -/

section Witnesses

set_option Elab.async false

theorem witness_HostCommandFormats : (zeros 0).length ≤ 255 ∧ (zeros 255).length ≤ 255 ∧
    [0x00, 0x07, 0x0F, 0x18, 0x21, 0x2F, 0x3C, 0xFF].all (fun b => !
      ([0x01, 0x02, 0x03, 0x04, 0x05, 0x06, 0x10, 0x11, 0x12, 0x13, 0x14, 0x15, 0x16, 0x17, 0x20] ++
        [0x30, 0x31, 0x32, 0x33, 0x34, 0x35, 0x36, 0x37, 0x38, 0x39, 0x3A, 0x3B] : List Byte).contains b) = true := by
  decide +kernel

theorem witness_HostDecodeEncode : ∃ i : Instr, i = .fifoWrite (zeros 255) ∧ i.isWire = false ∧
    ∀ l, i = .fifoWrite l ∨ i = .parse l → l.length ≤ 255 :=
  ⟨_, rfl, rfl, fun l h => by rcases h with h | h <;> cases h; decide +kernel⟩

theorem witness_HostEncodeDecode : decode [0x02, 0xFF, 0x00, 0x31] = .instr (.setReg 0xFF 0x00) [0x31] := by decide +kernel

theorem witness_DecodeWaitsOnlyForMissingBytes : decode [0x06, 0x09] = .instr .fifoRead [0x09] ∧
    decode [] = .incomplete ∧ decode [0x05, 0xFF] = .incomplete ∧ decode (0x05 :: 0xFF :: zeros 254) = .incomplete := by
  decide +kernel

theorem witness_WireDecodeEncode : profileWf prof = true ∧
    [Instr.wireSingleWrite 0 0, .wireSingleRead 0x3F, .wireBurstWrite 0x3F [], .wireBurstRead 0 15, .wireStatusPoll,
      .wireStrobeReset, .wireStrobeFlushTx].all (fun i => i.isWire && decide (encode prof i ≠ [])) = true := by decide +kernel

theorem witness_WireEncodeDecode : decodeWire prof [0x00, 0x00] = some (.wireSingleWrite 0 0) ∧
    decodeWire prof [0xC0] = some (.wireBurstRead 0 0) := by decide +kernel

theorem witness_WireFormsAreOneExchange : (fresh []).profile.flushRx = some 0x3A ∧ (fresh []).profile.flushTx = some 0x3B := by
  decide +kernel

theorem witness_FlushFormWithoutCodeRefused :
    ({ fresh [] with profile := profNoFlush } : State).profile.flushRx = none ∧
    ({ fresh [] with profile := profNoFlush } : State).profile.flushTx = none := by decide +kernel

theorem witness_ExchangeAdmitsEveryAnswer : AnswersBytes 2 (.ok [0x00, 0xFF]) ∧ AnswersBytes 2 .fail := ⟨rfl, trivial⟩

theorem witness_SetRegWritesOneRegister : (0x40 ≤ (0x40 : Byte).toNat ∧ 0x40 ≤ (0xFF : Byte).toNat) ∧
    (0x00 : Byte).toNat < 0x40 ∧ (0x3F : Byte).toNat < 0x40 := by decide +kernel

theorem witness_GetRegReturnsSecondByte : (0x40 ≤ (0x40 : Byte).toNat ∧ 0x40 ≤ (0xFF : Byte).toNat) ∧
    (0x00 : Byte).toNat < 0x40 ∧ (0x3F : Byte).toNat < 0x40 := by decide +kernel

/-- Selectors 0, 7, 8 and 9 have a code, 10 and 255 have none, nor have 8 and 9 without the flush codes. -/
theorem witness_StrobeSendsItsCode :
    let codes := fun p : Profile => [some p.strobes.reset, some p.strobes.fsTxOn, some p.strobes.xtalOff,
      some p.strobes.calibrate, some p.strobes.rx, some p.strobes.tx, some p.strobes.idle, some p.strobes.powerDown,
      p.flushRx, p.flushTx]
    (codes prof)[(0x00 : Byte).toNat]? = some (some 0x30) ∧ (codes prof)[(0x07 : Byte).toNat]? = some (some 0x39) ∧
    (codes prof)[(0x08 : Byte).toNat]? = some (some 0x3A) ∧ (codes prof)[(0x09 : Byte).toNat]? = some (some 0x3B) ∧
    (codes prof)[(0x0A : Byte).toNat]? = none ∧ (codes prof)[(0xFF : Byte).toNat]? = none ∧
    (codes profNoFlush)[(0x08 : Byte).toNat]? = some none ∧ (codes profNoFlush)[(0x09 : Byte).toNat]? = some none := by
  decide +kernel

theorem witness_FifoWriteThenStrobe : (zeros 255).length ≤ 255 ∧ (zeros 0).length ≤ 255 := by decide +kernel

/-- A tape for INIT: RESET, one not-ready poll, one ready, one not-ready identity read, one ready with 0x80, 33 writes, 4 strobes. -/
theorem witness_InitRunsToReady : ∃ (s : State) (x : Byte) (polls : List Byte) (p : Byte) (reads : List (Byte × Byte)) (sb : Byte)
    (writes settles : List (List Byte)) (tape : List XferOutcome),
    polls.length = 1 ∧ reads.length = 1 ∧
    profileWf s.profile = true ∧ s.resetIn = false ∧ s.oracle.xinit[0]? = some .ok ∧
    (∀ q ∈ polls, q.getLsbD 7 = true) ∧ p.getLsbD 7 = false ∧
    (∀ q ∈ reads, q.1.getLsbD 7 = true) ∧ sb.getLsbD 7 = false ∧
    writes.length = 33 ∧ (∀ w ∈ writes, w.length = 2) ∧ settles.length = 4 ∧ (∀ w ∈ settles, w.length = 1) ∧
    s.pollLimit ≠ 0 ∧ (polls.length < s.pollLimit.toNat ∧ reads.length < s.pollLimit.toNat) ∧
    s.oracle.xfer = ([[x]] ++ polls.map (fun q => [q]) ++ [[p]] ++ reads.map (fun q => [q.1, q.2]) ++ [[sb, 0x80]] ++
      writes ++ settles).map .ok ++ tape :=
  ⟨{ fresh [] with pollLimit := 2 }.answered
      (([[0x00], [0x80], [0x0F], [0x80, 0x80], [0x00, 0x80]] ++ List.replicate 33 (zeros 2) ++
        List.replicate 4 (zeros 1)).map .ok),
    0x00, [0x80], 0x0F, [(0x80, 0x80)], 0x00, List.replicate 33 (zeros 2), List.replicate 4 (zeros 1), [],
    rfl, rfl, by decide +kernel, rfl, rfl, by decide +kernel, by decide +kernel,
    fun q h => by (obtain rfl := List.mem_singleton.mp h); rfl, by decide +kernel,
    by decide +kernel, by decide +kernel, by decide +kernel, by decide +kernel, by decide +kernel, by decide +kernel, rfl⟩

/-- A state of a running INIT in this phase, at this index, whose next exchange is answered x. -/
def running (p : BuPhase) (k : Nat) (limit : BitVec 32) (x : XferOutcome) : State :=
  { (fresh []).inPhase p with cfgIdx := k, settleIdx := k, pollCnt := k, pollLimit := limit }.answered [x]

theorem witness_InitExchangeFailureEnds :
    [running .reset 0 0 .fail, running .readyPoll 0 0 .fail, running .idPoll 0 0 .fail, running .config 0 0 .fail,
      running .config 32 0 .fail, running .settle 0 0 .fail, running .settle 3 0 .fail].all (fun s =>
        profileWf s.profile && !s.resetIn && (bringUpForm s).isSome && decide (s.oracle.xfer[0]? = some .fail)) = true := by
  decide +kernel

/-- Ready; not ready at the bound 3; not ready below it; not ready with no bound. -/
theorem witness_ReadyPollOutcomes :
    [running .readyPoll 2 3 (.ok [0x0F]), running .readyPoll 2 3 (.ok [0x80]), running .readyPoll 1 3 (.ok [0xFF]),
      running .readyPoll 2 0 (.ok [0x80])].all (fun s =>
        profileWf s.profile && !s.resetIn && decide (s.buPhase = .readyPoll)) = true ∧
    (running .readyPoll 2 3 (.ok [0x0F])).oracle.xfer[0]? = some (.ok [0x0F]) ∧ (0x0F : Byte).getLsbD 7 = false ∧
    (0x80 : Byte).getLsbD 7 = true ∧
    ((running .readyPoll 2 3 (.ok [0x80])).pollLimit ≠ 0 ∧ (running .readyPoll 2 3 (.ok [0x80])).pollLimit.toNat ≤ 2 + 1) ∧
    1 + 1 < (running .readyPoll 1 3 (.ok [0xFF])).pollLimit.toNat ∧ (running .readyPoll 2 0 (.ok [0x80])).pollLimit = 0 := by
  decide +kernel

/-- Ready with 0x80, ready with 0x81, not ready at the bound, below it, and with no bound. -/
theorem witness_IdentityReadOutcomes :
    [running .idPoll 2 3 (.ok [0x0F, 0x80]), running .idPoll 2 3 (.ok [0x00, 0x81]), running .idPoll 2 3 (.ok [0x80, 0x80]),
      running .idPoll 1 3 (.ok [0xFF, 0x80]), running .idPoll 2 0 (.ok [0x80, 0x00])].all (fun s =>
        profileWf s.profile && !s.resetIn && decide (s.buPhase = .idPoll)) = true ∧
    (running .idPoll 2 3 (.ok [0x0F, 0x80])).oracle.xfer[0]? = some (.ok [0x0F, 0x80]) ∧ (0x0F : Byte).getLsbD 7 = false ∧
    (0x81 : Byte) ≠ 0x80 ∧ (0x80 : Byte).getLsbD 7 = true ∧
    ((running .idPoll 2 3 (.ok [0x80, 0x80])).pollLimit ≠ 0 ∧ (running .idPoll 2 3 (.ok [0x80, 0x80])).pollLimit.toNat ≤ 2 + 1) ∧
    1 + 1 < (running .idPoll 1 3 (.ok [0xFF, 0x80])).pollLimit.toNat ∧
    (running .idPoll 2 0 (.ok [0x80, 0x00])).pollLimit = 0 := by decide +kernel

theorem witness_UnboundedPollGoesOnForever : ∃ s : State, profileWf s.profile = true ∧ s.resetIn = false ∧
    s.buPhase = .readyPoll ∧ s.pollLimit = 0 ∧ (∀ sb ∈ ([0x80, 0xFF, 0x8F] : List Byte), sb.getLsbD 7 = true) ∧
    s.oracle.xfer = ([0x80, 0xFF, 0x8F] : List Byte).map (fun sb => .ok [sb]) ++ [.fail] :=
  ⟨((fresh []).inPhase .readyPoll).answered [.ok [0x80], .ok [0xFF], .ok [0x8F], .fail], by decide +kernel⟩

/-- The other loop: two identity reads, the values 0x80 and 0x00 not looked at. -/
theorem witness_UnboundedPollGoesOnForever_identity : ∃ s : State, profileWf s.profile = true ∧ s.resetIn = false ∧
    s.pollLimit = 0 ∧ s.buPhase = .idPoll ∧
    (∀ q ∈ ([(0x80, 0x80), (0xFF, 0x00)] : List (Byte × Byte)), q.1.getLsbD 7 = true) ∧
    s.oracle.xfer = ([(0x80, 0x80), (0xFF, 0x00)] : List (Byte × Byte)).map (fun q => .ok [q.1, q.2]) ++ [.fail] :=
  ⟨((fresh []).inPhase .idPoll).answered [.ok [0x80, 0x80], .ok [0xFF, 0x00], .fail], by decide +kernel, rfl, rfl, rfl,
    fun q h => by (rcases List.mem_cons.mp h with rfl | h; rfl; obtain rfl := List.mem_singleton.mp h; rfl), rfl⟩

theorem witness_BoundedInitEnds : ∃ s : State, profileWf s.profile = true ∧ s.resetIn = false ∧ s.pollLimit ≠ 0 :=
  ⟨{ fresh [] with pollLimit := 1 }, by decide +kernel⟩

/-- A state in the middle of a bounded poll, with a response and an exchange behind it, that meets the invariant. -/
def polling : State :=
  { running .readyPoll 2 3 .fail with responses := [[0x00]], trace := [.xfer [0x30] (.ok [0x80])] }

theorem polling_inv : Inv polling := by
  refine ⟨by decide +kernel, by decide +kernel, by decide +kernel, by decide +kernel,
    fun h => absurd h (by decide +kernel), fun h => absurd h (by decide +kernel), fun _ _ => (by decide +kernel), ?_, ?_⟩
  · intro r hr
    obtain rfl : r = [0x00] := by simpa [polling] using hr
    exact ⟨0x00, [], rfl, by decide +kernel⟩
  · intro e he
    obtain rfl : e = .xfer [0x30] (.ok [0x80]) := by simpa [polling] using he
    exact ⟨by decide +kernel, rfl⟩

theorem witness_RunningInitPerformsOneWireForm : (Inv polling ∧ polling.busy = true) ∧
    profileWf (running .config 32 0 .fail).profile = true ∧ (running .config 32 0 .fail).resetIn = false ∧
    bringUpForm (running .config 32 0 .fail) = some (.wireSingleWrite 32 33) ∧
    bringUpForm (running .settle 3 0 .fail) = some .wireStrobeIdle := ⟨⟨polling_inv, by decide +kernel⟩, by decide +kernel⟩

/-- A state of an INIT with its exchanges in TRACE: one poll and one identity read, each of its exchanges answered. -/
def broughtUp (p : BuPhase) (k : Nat) (rxs : List (List Byte)) (x : XferOutcome) : State :=
  let s := running p k 0 x
  { s with trace := .xinit .ok :: List.zipWith (fun tx rx => Event.xfer tx (.ok rx)) (bringUpFrames s 0 0) rxs }

/-- The answers up to the end of phase CONFIG and three settle strobes. -/
def goodAnswers : List (List Byte) :=
  [[0x00], [0x00], [0x00, 0x80]] ++ List.replicate 33 (zeros 2) ++ List.replicate 3 (zeros 1)

theorem broughtUp_ordered : BringUpOrdered (broughtUp .settle 3 goodAnswers (.ok [0x00])) := fun _ =>
  ⟨[], 0, 0, goodAnswers, by decide +kernel, by decide +kernel, fun _ => ⟨0x00, by decide +kernel, by decide +kernel⟩⟩

/-- The last settle strobe is next and is answered. -/
theorem witness_BringUpOrderKept : ∃ s t : State, BringUpOrdered s ∧ s.busy = true ∧ step s = .next t :=
  ⟨_, _, broughtUp_ordered, by decide +kernel, step_busy (by decide +kernel) (by decide +kernel) (by decide +kernel)⟩

theorem witness_InitOkMadeWholeSequence : ∃ s t : State,
    BringUpOrdered s ∧ s.busy = true ∧ step s = .next t ∧ t.buPhase = .ready ∧ t.responses = s.responses ++ [[0x00]] :=
  ⟨_, _, broughtUp_ordered, by decide +kernel, step_busy (by decide +kernel) (by decide +kernel) (by decide +kernel),
    by decide +kernel, by decide +kernel⟩

/-- The last settle strobe of an INIT, from the observer's start. -/
theorem witness_InitConfiguresBeforeStrobes : ∃ s t : State, BringUpOrdered s ∧ ConfiguredBeforeStrobes .start s ∧
    s.busy = true ∧ step s = .next t :=
  ⟨_, _, broughtUp_ordered, fun _ => ⟨by decide +kernel, nofun⟩, by decide +kernel,
    step_busy (by decide +kernel) (by decide +kernel) (by decide +kernel)⟩

/-- After an INIT that returned OK: HOST's STROBE IDLE is next, and is not breaking. -/
def broughtUpThenStrobe : State :=
  { broughtUp .ready 0 (goodAnswers ++ [[0x00]]) (.ok [0x00]) with hostIn := [0x04, 0x06] }

theorem witness_InitConfiguresBeforeStrobes_host : ∃ t : State, BringUpOrdered broughtUpThenStrobe ∧
    ConfiguredBeforeStrobes ⟨true, false⟩ broughtUpThenStrobe ∧ broughtUpThenStrobe.busy = false ∧
    step broughtUpThenStrobe = .next t :=
  ⟨_, fun h => absurd h (by decide +kernel), fun _ => ⟨by decide +kernel, fun _ _ => by decide +kernel⟩, by decide +kernel,
    (step_instr (i := .strobe 0x06) (rest := []) (by decide +kernel) (by decide +kernel) (by decide +kernel)
      (by decide +kernel)).trans rfl⟩

/-- A run of one step in which HOST issues no strobe: RD_BUSTATE. -/
theorem witness_InitConfiguresBeforeStrobes_run : ∃ t : State, (fresh [0x3B]).busy = false ∧ (fresh [0x3B]).trace = [] ∧
    NoBreakingStrobe 1 (fresh [0x3B]) ∧ Host.Core.run Sys2Proof.core 1 (fresh [0x3B]) = .next t := by
  have h := step_instr (s := fresh [0x3B]) (by decide +kernel) rfl rfl
    (show decode [0x3B] = .instr .rdBustate [] by decide +kernel)
  refine ⟨(fresh []).respond .ok [0x00], rfl, rfl, show (StrobeWatch.run 1 (fresh [0x3B]) .start).broken = false by decide +kernel, ?_⟩
  show (match step (fresh [0x3B]) with
    | .next s' => Host.Outcome.next s'
    | .fault r => .fault r
    | .refused r => .refused r) = _
  rw [h]
  rfl

theorem legal_cases : LegalOperands 3 0 ∧ LegalOperands 5 0 ∧ LegalOperands 7 1 ∧ ¬ LegalOperands 4 0 ∧ ¬ LegalOperands 5 2 := by
  unfold LegalOperands; decide +kernel

/-- Illegal bytes; each register the first unwritten one; all written; COLOR unwritten with a colour supplied. -/
theorem witness_BuildReturnsPacket :
    (¬ LegalOperands 4 0 ∧ ¬ LegalOperands 5 2) ∧ LegalOperands 5 0 ∧ LegalOperands 7 1 ∧
    firstUnwritten (fresh []) 0 = some 0x01 ∧ firstUnwritten { session [] with seqW := false } 1 = some 0x02 ∧
    firstUnwritten { session [] with colorW := false } 0 = some 0x04 ∧ firstUnwritten (session []) 0 = none ∧
    firstUnwritten { session [] with colorW := false } 1 = none := by
  refine ⟨⟨legal_cases.2.2.2.1, legal_cases.2.2.2.2⟩, legal_cases.2.1, legal_cases.2.2.1, ?_⟩
  decide +kernel

theorem witness_SendRefusedBeforeExchange :
    sendOperands (.send 4 0 ⟨0, 0, 0⟩) = some (4, 0, ⟨0, 0, 0⟩) ∧ ¬ LegalOperands 4 0 ∧
    sendOperands .turnOn = some (5, 0, ⟨0, 0, 0⟩) ∧ LegalOperands 5 0 ∧
    firstUnwritten (fresh []) 0 = some 0x01 ∧ firstUnwritten { session [] with colorW := false } 0 = some 0x04 :=
  ⟨rfl, legal_cases.2.2.2.1, rfl, legal_cases.2.1, by decide +kernel, by decide +kernel⟩

theorem witness_SendWritesPacketAndAdvances :
    sendOperands .turnOff = some (7, 0, ⟨0, 0, 0⟩) ∧ LegalOperands 7 0 ∧ firstUnwritten (session []) 0 = none ∧
    sendOperands (.setColor ⟨1, 2, 3⟩) = some (3, 1, ⟨1, 2, 3⟩) ∧ LegalOperands 3 1 ∧
    firstUnwritten { session [] with colorW := false } 1 = none := by
  refine ⟨rfl, ?_, by decide +kernel, rfl, ?_, by decide +kernel⟩ <;> unfold LegalOperands <;> decide +kernel

theorem witness_ParseChecksFrame : (zeros 0).length ≤ 255 ∧ (zeros 255).length ≤ 255 ∧
    (zeros 14).length ≠ 15 ∧ (zeros 16).length ≠ 15 ∧
    packetOn = 0x0E :: packetOn.drop 1 ∧ (packetOn.drop 1).length = 14 ∧
    zeros 15 = 0x00 :: zeros 14 ∧ (zeros 14).length = 14 := by decide +kernel

theorem witness_ParseInvertsBuild : LegalOperands 5 0 ∧ firstUnwritten (session []) 0 = none :=
  ⟨legal_cases.2.1, by decide +kernel⟩

theorem witness_HueIsNearest : ¬ ((255 : Byte) = 0 ∧ (0 : Byte) = 1) ∧ ¬ ((34 : Byte) = 0 ∧ (0 : Byte) = 81) := by decide +kernel

theorem witness_SaturationAndIntensityNearest : ¬ ((255 : Byte) = 0 ∧ (0 : Byte) = 0) ∧ ¬ ((8 : Byte) = 5 ∧ (5 : Byte) = 5) := by
  decide +kernel

/-- (255, 255, 0), (255, 0, 255), (0, 255, 255) and the saturation ties (1, 2, 3) and (8, 5, 5), each in both modes. -/
theorem witness_TiesResolvedByMode :
    hueA 255 255 0 > 0 ∧ hueA 255 255 0 ^ 2 = hueD 255 255 0 ∧ hueA 255 0 255 > 0 ∧ hueA 255 0 255 ^ 2 = hueD 255 0 255 ∧
    hueA 0 255 255 < 0 ∧ hueA 0 255 255 ^ 2 = 4 * hueD 0 255 255 ∧
    510 * (6 - 3 * 1) % 6 = 0 ∧ 255 * (6 - 3 * 1) % 6 ≠ 0 ∧ 510 * (18 - 3 * 5) % 18 = 0 ∧ 255 * (18 - 3 * 5) % 18 ≠ 0 ∧
    (fresh []).profile.tieMode = .draw ∧ ({ fresh [] with profile := { prof with tieMode := .binary64 } }).profile.tieMode = .binary64 ∧
    ¬ ((1 : Byte) = 2 ∧ (2 : Byte) = 3) ∧ ¬ ((8 : Byte) = 5 ∧ (5 : Byte) = 5) := by decide +kernel

/-- (10, 20, 30) and (20, 40, 60); (128, 64, 32) and (200, 100, 50) with 25 and 16. -/
theorem witness_ScaleInvariance : 2 * (10 : Byte).toNat = 1 * (20 : Byte).toNat ∧ 2 * (20 : Byte).toNat = 1 * (40 : Byte).toNat ∧
    2 * (30 : Byte).toNat = 1 * (60 : Byte).toNat ∧ 25 * (128 : Byte).toNat = 16 * (200 : Byte).toNat ∧
    25 * (64 : Byte).toNat = 16 * (100 : Byte).toNat ∧ 25 * (32 : Byte).toNat = 16 * (50 : Byte).toNat := by decide +kernel

theorem witness_SessionReads : (session []).addrW = true ∧ (session []).seqW = true ∧ (session []).colorW = true ∧
    (fresh []).addrW = false ∧ (fresh []).seqW = false ∧ (fresh []).colorW = false := by decide +kernel

theorem witness_OnlyWritersWrite : ∃ t, exec .turnOn (session []) = .next t ∧ (∀ a, Instr.turnOn ≠ .wrAddr a) ∧
    (∀ c, Instr.turnOn ≠ .wrColor c) ∧ (∀ v, Instr.turnOn ≠ .wrCtrl v) ∧ (∀ l, Instr.turnOn ≠ .wrPollLimit l) ∧
    Instr.turnOn ≠ .init ∧ (∀ v, Instr.rdAddr ≠ .wrSeq v) ∧ sendOperands .rdAddr = none :=
  ⟨_, rfl, nofun, nofun, nofun, nofun, nofun, nofun, rfl⟩

/-- A step that sets a FAULT bit: RD_ADDR with ADDR unwritten. -/
theorem witness_FaultBitsSticky : ∃ s t : State, s.resetIn = false ∧ step s = .next t ∧ t.fault = 0x01 :=
  ⟨fresh [0x31], ((fresh []).setFaultBit .addrUnwritten).respond .fault [], rfl,
    step_instr (s := fresh [0x31]) (by decide +kernel) rfl rfl (show decode [0x31] = .instr .rdAddr [] by decide +kernel),
    by decide +kernel⟩

/-- HOST reads BU_PHASE in READY, then builds a packet of the session: a run of two commands, every duty kept. -/
theorem ready_run : ∃ t, DutifulRun [[0x3B], [0x10, 0x05, 0x00, 0x00, 0x00, 0x00]] ((session []).inPhase .ready) t ∧
    faulted t = false :=
  ⟨(((session []).inPhase .ready).respond .ok [0x07]).respond .ok packetOn,
    ⟨by decide +kernel, ((session []).inPhase .ready).respond .ok [0x07],
      answered_of_exec (i := .rdBustate) (by decide +kernel) ⟨rfl, rfl, rfl⟩ (by decide +kernel) rfl ⟨rfl, rfl, rfl⟩,
      by decide +kernel, _,
      answered_of_exec (i := .build 0x05 0x00 ⟨0, 0, 0⟩) (by decide +kernel) ⟨rfl, rfl, rfl⟩ (by decide +kernel) rfl ⟨rfl, rfl, rfl⟩,
      ⟨rfl, rfl, rfl⟩, rfl⟩,
    by decide +kernel⟩

/-- One step, a safe run and a dutiful run. -/
theorem witness_SafeRunStartsUnfaulted :
    (∃ s t : State, s.resetIn = false ∧ Host.Core.run Sys2Proof.core 1 s = .next t ∧ faulted t = false) ∧
    (∃ cs s t, SafeRun cs s t ∧ cs ≠ []) ∧
    ∃ cs s t, DutifulRun cs s t ∧ cs ≠ [] ∧ ∀ c ∈ cs, c ≠ [0x31] ∧ c ≠ [0x33] ∧ c ≠ [0x35] := by
  obtain ⟨t, h, hf⟩ := ready_run
  refine ⟨⟨polling, _, by decide +kernel,
    run_succ (k := 0) (step_busy (by decide +kernel) (by decide +kernel) (by decide +kernel)), by decide +kernel⟩,
    ⟨_, _, t, ⟨h.hostRun, hf⟩, nofun⟩, ⟨_, _, t, h, nofun, by decide +kernel⟩⟩

/-- The two states differ in the stored bytes of the unwritten ADDR. -/
theorem witness_UnreadValuesInvisible :
    forgetUnread { fresh [0x31] with addr := ⟨1, 2, 3, 4, 5, 6, 7, 8, 9⟩ } = forgetUnread { fresh [0x31] with pollCnt := 7 } := by
  decide +kernel

theorem witness_NoOperationWaitsForBringUp : Instr.isWire (.setReg 0 0) = false ∧ Instr.setReg 0 0 ≠ .init ∧
    Instr.setReg 0 0 ≠ .rdBustate := by decide +kernel

/-- RECV_PACKET; INIT at reset with POLL_LIMIT 1, and an unassigned code with POLL_LIMIT 0; a run of two commands. -/
theorem witness_EveryHostOperationAnswersOnce : (Instr.isWire .recvPacket = false ∧ Instr.recvPacket ≠ .init) ∧
    (profileWf prof = true ∧ AwaitsHost { fresh [] with pollLimit := 1 } ∧ IsCommand [0x01] ∧
      ({ fresh [] with pollLimit := 1 } : State).pollLimit ≠ 0) ∧
    (AwaitsHost (fresh []) ∧ IsCommand [0x07] ∧ ([0x07] : List Byte) ≠ [0x01]) ∧ ∃ cs s t, HostRun cs s t ∧ cs.length = 2 := by
  obtain ⟨t, h, -⟩ := ready_run
  exact ⟨by decide +kernel, ⟨by decide +kernel, ⟨rfl, rfl, rfl⟩, .inl ⟨.init, by decide +kernel⟩, by decide +kernel⟩,
    ⟨⟨rfl, rfl, rfl⟩, .inr ⟨0x07, by decide +kernel⟩, by decide +kernel⟩, ⟨_, _, t, h.hostRun, rfl⟩⟩

theorem witness_StepRunsDecodedCommand : profileWf (fresh [0x33, 0x06]).profile = true ∧ (fresh [0x33, 0x06]).resetIn = false ∧
    (fresh [0x33, 0x06]).buPhase = .uninit ∧ decode (fresh [0x33, 0x06]).hostIn = .instr .rdSeq [0x06] := by decide +kernel

theorem witness_StepAnswersUnassignedCode : profileWf (fresh [0xFF, 0x06]).profile = true ∧ (fresh [0xFF, 0x06]).resetIn = false ∧
    (fresh [0xFF, 0x06]).buPhase = .uninit ∧ (fresh [0xFF, 0x06]).hostIn = 0xFF :: [0x06] ∧
    (0xFF : Byte) ∉ ([0x01, 0x02, 0x03, 0x04, 0x05, 0x06, 0x10, 0x11, 0x12, 0x13, 0x14, 0x15, 0x16, 0x17, 0x20] ++
      [0x30, 0x31, 0x32, 0x33, 0x34, 0x35, 0x36, 0x37, 0x38, 0x39, 0x3A, 0x3B] : List Byte) := by decide +kernel

/-- A WR_ADDR without its last byte, and no byte at all. -/
theorem witness_StepWaitsForMissingBytes :
    profileWf (fresh []).profile = true ∧ (fresh []).resetIn = false ∧ (fresh []).buPhase = .uninit ∧
    Instr.isWire (.wrAddr ⟨1, 2, 3, 4, 5, 6, 7, 8, 9⟩) = false ∧
    (∀ l, Instr.wrAddr ⟨1, 2, 3, 4, 5, 6, 7, 8, 9⟩ = .fifoWrite l ∨ Instr.wrAddr ⟨1, 2, 3, 4, 5, 6, 7, 8, 9⟩ = .parse l →
      l.length ≤ 255) ∧ ([0x09] : List Byte) ≠ [] ∧
    (fresh [0x30, 1, 2, 3, 4, 5, 6, 7, 8]).hostIn ++ [0x09] = encode prof (.wrAddr ⟨1, 2, 3, 4, 5, 6, 7, 8, 9⟩) ∧
    (fresh [0x30, 1, 2, 3, 4, 5, 6, 7, 8]).hostIn ≠ [] ∧ (fresh []).hostIn = [] ∧ AwaitsHost (fresh []) :=
  ⟨by decide +kernel, rfl, rfl, rfl, fun l h => (by rcases h with h | h <;> cases h),
    by decide +kernel, by decide +kernel, by decide +kernel, rfl, ⟨rfl, rfl, rfl⟩⟩

/-- Each condition of R8 broken alone. -/
theorem witness_StepRefusesIllegalProfile :
    ({ prof with pataddr := 0x3F } : Profile).pataddr = ({ prof with pataddr := 0x3F } : Profile).fifoAddr ∧
    ({ prof with pataddr := 0x2E } : Profile).pataddr.toNat ≤ 0x2E ∧ ({ prof with fifoAddr := 0x00 } : Profile).fifoAddr.toNat ≤ 0x2E ∧
    (0x30 ≤ ({ prof with pataddr := 0x30 } : Profile).pataddr.toNat ∧ ({ prof with pataddr := 0x3D } : Profile).pataddr.toNat ≤ 0x3D) ∧
    (0x30 ≤ ({ prof with fifoAddr := 0x3D } : Profile).fifoAddr.toNat ∧ ({ prof with fifoAddr := 0x3D } : Profile).fifoAddr.toNat ≤ 0x3D) ∧
    (∃ b ∈ profileCodes { prof with flushRx := some 0x40 }, 0x40 ≤ b.toNat ∨ b = 0x00) ∧
    (∃ b ∈ profileCodes { prof with flushTx := some 0x00 }, 0x40 ≤ b.toNat ∨ b = 0x00) ∧
    ¬ (profileCodes { prof with flushRx := some 0x30 }).Nodup ∧
    ({ prof with idRegAddr := 0x2F } : Profile).idRegAddr.toNat < 0x30 ∧ 0x3D < ({ prof with idRegAddr := 0x3E } : Profile).idRegAddr.toNat ∧
    ({ prof with configTable := [] } : Profile).configTable.length ≠ 33 ∧ ({ prof with scratchMax := 15 } : Profile).scratchMax < 16 := by
  decide +kernel

/-- In the middle of a command and of an INIT. -/
theorem witness_BlockResetRestoresRegisters : ∃ s : State, profileWf s.profile = true ∧ s.resetIn = true ∧ s.busy = true ∧ s.hostIn ≠ [] :=
  ⟨{ (session [0x02]).inPhase .config with resetIn := true }, by decide +kernel⟩

theorem witness_StepKeepsInvariant : ∃ s t : State, Inv s ∧ s.busy = true ∧ step s = .next t :=
  ⟨polling, _, polling_inv, by decide +kernel, step_busy (by decide +kernel) (by decide +kernel) (by decide +kernel)⟩

theorem witness_TraceOnlyGrows : ∃ s t : State, s.resetIn = false ∧ step s = .next t :=
  ⟨fresh [0x31], ((fresh []).setFaultBit .addrUnwritten).respond .fault [], rfl,
    step_instr (s := fresh [0x31]) (by decide +kernel) rfl rfl (show decode [0x31] = .instr .rdAddr [] by decide +kernel)⟩

/-- On REFCHIP's default state, with the answers V1 gives for SET_REG 0x3D, 0x5A and GET_REG 0x3D. -/
theorem witness_RefchipRoundTrip : (0x3D : Byte).toNat ≤ 0x3D ∧ refDefault.reg.length = 64 ∧
    (refFollows prof refDefault
      [.xfer [0x3D, 0x5A] (.ok [0x00, 0x00]), .xfer [0xBD, 0x00] (.ok [0x00, 0x5A])]).isSome = true ∧
    (∀ tx, Event.xfer tx .fail ∉ [Event.xfer [0x3D, 0x5A] (.ok [0x00, 0x00]), .xfer [0xBD, 0x00] (.ok [0x00, 0x5A])]) :=
  ⟨by decide +kernel, by decide +kernel, by decide +kernel, fun tx h => by simp at h⟩

/-- On REFCHIP's default state, with the answers V12 gives for SEND. -/
theorem witness_RefchipSendReachesAir : profileWf (session []).profile = true ∧
    sendOperands .turnOn = some (5, 0, ⟨0, 0, 0⟩) ∧ LegalOperands 5 0 ∧ firstUnwritten (session []) 0 = none ∧
    refDefault.txq = [] ∧ responsesOf (exec .turnOn ((session []).answered [.ok (zeros 16), .ok (zeros 1)])) = [[0x00]] ∧
    (refFollows prof refDefault [.xfer (0x7F :: packetOn) (.ok (zeros 16)), .xfer [0x35] (.ok (zeros 1))]).isSome = true :=
  ⟨by decide +kernel, rfl, legal_cases.2.1, by decide +kernel, rfl, by decide +kernel, by decide +kernel⟩

end Witnesses

end Sys2Proof.Tests
end

section
/-! SUPPORT. The profile's conditions (spec/00_scope.md R8) as a proposition with named parts, and the refusal of a profile
that breaks one. -/

namespace Sys2Proof.Machine

/-! ### The checks behind `profileWf` -/

theorem inCfgRange_eq_false {a : RegAddr} : inCfgRange a = false ↔ 0x2E < a.toNat := by
  simp [inCfgRange]

theorem inStatusRange_eq_true {a : RegAddr} : inStatusRange a = true ↔ 0x30 ≤ a.toNat ∧ a.toNat ≤ 0x3D := by
  simp [inStatusRange]

theorem inStatusRange_eq_false {a : RegAddr} : inStatusRange a = false ↔ ¬ (0x30 ≤ a.toNat ∧ a.toNat ≤ 0x3D) := by
  rw [← inStatusRange_eq_true, Bool.not_eq_true]

theorem strobeCodeOk_eq_true {b : Byte} : strobeCodeOk b = true ↔ b.toNat < 0x40 ∧ b ≠ 0x00 := by
  simp [strobeCodeOk]

theorem allDistinct_eq_true {bs : List Byte} : allDistinct bs = true ↔ bs.Nodup := by
  induction bs with
  | nil => simp [allDistinct]
  | cons b bs ih => simp [allDistinct, ih]

/-! ### R8 as a proposition -/

/-- A profile that meets R8, its conditions by name. -/
structure LegalProfile (p : Profile) : Prop where
  pataddr_ne_fifoAddr : p.pataddr ≠ p.fifoAddr
  pataddr_above_cfg : 0x2E < p.pataddr.toNat
  pataddr_not_status : ¬ (0x30 ≤ p.pataddr.toNat ∧ p.pataddr.toNat ≤ 0x3D)
  fifoAddr_above_cfg : 0x2E < p.fifoAddr.toNat
  fifoAddr_not_status : ¬ (0x30 ≤ p.fifoAddr.toNat ∧ p.fifoAddr.toNat ≤ 0x3D)
  codes_nodup : (profileCodes p).Nodup
  code_range : ∀ b ∈ profileCodes p, b.toNat < 0x40 ∧ b ≠ 0x00
  idRegAddr_status : 0x30 ≤ p.idRegAddr.toNat ∧ p.idRegAddr.toNat ≤ 0x3D
  configTable_length : p.configTable.length = 33
  scratchMax_ge : 16 ≤ p.scratchMax

/-- The model's check of a profile is R8. -/
theorem profileWf_iff_legalProfile {p : Profile} : profileWf p = true ↔ LegalProfile p := by
  simp only [profileWf, Bool.and_eq_true, Bool.not_eq_true', decide_eq_true_eq, List.all_eq_true, inCfgRange_eq_false,
    inStatusRange_eq_true, inStatusRange_eq_false, allDistinct_eq_true, strobeCodeOk_eq_true]
  constructor
  · rintro ⟨⟨⟨⟨⟨⟨⟨⟨⟨hne, hpc⟩, hps⟩, hfc⟩, hfs⟩, hnd⟩, hcodes⟩, hid⟩, htab⟩, hmax⟩
    exact ⟨hne, hpc, hps, hfc, hfs, hnd, hcodes, hid, htab, hmax⟩
  · rintro ⟨hne, hpc, hps, hfc, hfs, hnd, hcodes, hid, htab, hmax⟩
    exact ⟨⟨⟨⟨⟨⟨⟨⟨⟨hne, hpc⟩, hps⟩, hfc⟩, hfs⟩, hnd⟩, hcodes⟩, hid⟩, htab⟩, hmax⟩

/-- Without a legal profile the step is the refusal, whatever else the state holds (60_exceptions.md R337). -/
theorem step_of_not_legalProfile {s : State} (h : ¬ LegalProfile s.profile) : step s = .refused .profileRefused := by
  rw [← profileWf_iff_legalProfile] at h
  exact if_neg h

/-! ### The obligation -/

/-- Settles O53: each broken condition contradicts one part of `LegalProfile`, and the step refuses a profile without it. -/
theorem stepRefusesIllegalProfile : Obligations.StepRefusesIllegalProfile := by
  intro s broken
  apply step_of_not_legalProfile
  intro legal
  rcases broken with heq | hpc | hfc | hps | hfs | ⟨b, hb, hbad⟩ | hdup | hlow | hhigh | hlen | hmax
  · exact legal.pataddr_ne_fifoAddr heq
  · exact hpc.not_gt legal.pataddr_above_cfg
  · exact hfc.not_gt legal.fifoAddr_above_cfg
  · exact legal.pataddr_not_status hps
  · exact legal.fifoAddr_not_status hfs
  · obtain ⟨hlt, hne⟩ := legal.code_range b hb
    exact hbad.elim hlt.not_ge hne
  · exact hdup legal.codes_nodup
  · exact hlow.not_ge legal.idRegAddr_status.left
  · exact hhigh.not_ge legal.idRegAddr_status.right
  · exact hlen legal.configTable_length
  · exact hmax.not_ge legal.scratchMax_ge

end Sys2Proof.Machine
end

section
/-! SUPPORT. What nothing reads (spec/10_state.md R27, R29): every operation and every phase of INIT acts alike on a state and
on the state with its unread values forgotten. -/

namespace Sys2Proof.Machine

open Sys2Proof.Safety

/-! ### Forgetting -/

/-- s and t hold the same wherever something reads (R27, R29). -/
structure SameRead (s t : State) : Prop where
  rest : s = { t with addr := s.addr, seq := s.seq, color := s.color,
                      cfgIdx := s.cfgIdx, settleIdx := s.settleIdx, pollCnt := s.pollCnt }
  addr : t.addrW = true → s.addr = t.addr
  seq : t.seqW = true → s.seq = t.seq
  color : t.colorW = true → s.color = t.color
  cfgIdx : t.buPhase = .config → s.cfgIdx = t.cfgIdx
  settleIdx : t.buPhase = .settle → s.settleIdx = t.settleIdx
  pollCnt : t.buPhase = .readyPoll ∨ t.buPhase = .idPoll → s.pollCnt = t.pollCnt

theorem SameRead.forgetUnread_eq {s t : State} (h : SameRead s t) : forgetUnread s = forgetUnread t := by
  obtain ⟨rest, addr, seq, color, cfgIdx, settleIdx, pollCnt⟩ := h
  rw [rest]
  simp only [forgetUnread, State.mk.injEq, true_and, and_true]
  exact ⟨ite_congr rfl addr fun _ => rfl, ite_congr rfl seq fun _ => rfl, ite_congr rfl color fun _ => rfl,
    ite_congr rfl cfgIdx fun _ => rfl, ite_congr rfl settleIdx fun _ => rfl, ite_congr rfl pollCnt fun _ => rfl⟩

theorem sameRead_forgetUnread (s : State) : SameRead (forgetUnread s) s :=
  ⟨rfl, fun h => if_pos h, fun h => if_pos h, fun h => if_pos h, fun h => if_pos h, fun h => if_pos h,
    fun h => if_pos h⟩

theorem forgetUnread_idem (s : State) : forgetUnread (forgetUnread s) = forgetUnread s :=
  (sameRead_forgetUnread s).forgetUnread_eq

theorem forgetUnread_pollCnt {s : State} (h : s.buPhase = .readyPoll ∨ s.buPhase = .idPoll) :
    (forgetUnread s).pollCnt = s.pollCnt := if_pos h

theorem forgetUnread_cfgIdx {s : State} (h : s.buPhase = .config) : (forgetUnread s).cfgIdx = s.cfgIdx := if_pos h

theorem forgetUnread_settleIdx {s : State} (h : s.buPhase = .settle) :
    (forgetUnread s).settleIdx = s.settleIdx := if_pos h

/-! ### Operations that touch no unread value -/

/-- f answers the same on a state with its unread values forgotten, and acts on the rest as it would have. -/
def Transparent {α : Type} (f : State → α × State) : Prop :=
  ∀ s, f (forgetUnread s) = ((f s).1, forgetUnread (f s).2)

theorem xinit_transparent : Transparent xinit := fun _ => rfl

theorem xfer_transparent (tx : List Byte) : Transparent (xfer tx) := fun _ => rfl

theorem alloc_transparent (n : Nat) : Transparent (alloc n) := by
  intro s
  have hp : (forgetUnread s).profile = s.profile := rfl
  unfold alloc
  rw [hp]
  split
  · rfl
  · split <;> rfl

theorem raiseError_transparent (code : ResultCode) (data : List Byte) : Transparent (raiseError code data) := fun _ => rfl

theorem raiseFault_transparent (b : FaultBit) : Transparent (raiseFault b) := fun _ => rfl

theorem poll_transparent : Transparent poll := by
  intro s
  unfold poll
  rw [xfer_transparent]
  rcases xfer framePoll s with ⟨_ | _, s'⟩ <;> rfl

theorem statusRead_transparent (a : RegAddr) : Transparent (statusRead a) := by
  intro s
  unfold statusRead
  rw [xfer_transparent]
  rcases xfer (frameBurstRead a 1) s with ⟨_ | _, s'⟩ <;> rfl

theorem setReg_transparent (a v : Byte) : Transparent (setReg a v) := by
  intro s
  unfold setReg
  split
  · rfl
  · rw [xfer_transparent]
    rcases xfer (frameSingleWrite (addrField a) v) s with ⟨_ | _, s'⟩ <;> rfl

theorem getReg_transparent (a : Byte) : Transparent (getReg a) := by
  intro s
  unfold getReg
  split
  · rfl
  · rw [xfer_transparent]
    rcases xfer (frameSingleRead (addrField a)) s with ⟨_ | _, s'⟩ <;> rfl

theorem strobe_transparent (sel : Byte) : Transparent (strobe sel) := by
  intro s
  have hp : (forgetUnread s).profile = s.profile := rfl
  unfold strobe
  rw [hp]
  cases selectorCode s.profile sel with
  | none => rfl
  | some code =>
    simp only [xfer_transparent (frameStrobe code) s]
    rcases xfer (frameStrobe code) s with ⟨_ | _, s'⟩ <;> rfl

theorem fifoWrite_transparent (p : List Byte) : Transparent (fifoWrite p) := by
  intro s
  unfold fifoWrite
  rw [alloc_transparent]
  rcases alloc (p.length + 1) s with ⟨_ | _, s1⟩
  · rfl
  · have hp : (forgetUnread s1).profile = s1.profile := rfl
    simp only [hp, xfer_transparent (frameBurstWrite s1.profile.fifoAddr p) s1]
    rcases xfer (frameBurstWrite s1.profile.fifoAddr p) s1 with ⟨_ | _, s2⟩
    · have hp : (forgetUnread s2).profile = s2.profile := rfl
      simp only [hp, xfer_transparent (frameStrobe s2.profile.strobes.tx) s2]
      rcases xfer (frameStrobe s2.profile.strobes.tx) s2 with ⟨_ | _, s3⟩ <;> rfl
    · rfl

theorem fifoRead_transparent : Transparent fifoRead := by
  intro s
  unfold fifoRead
  rw [poll_transparent]
  rcases poll s with ⟨_ | sb, s1⟩
  · rfl
  · simp only [alloc_transparent ((statusFifoCount sb).toNat + 1) s1]
    rcases alloc ((statusFifoCount sb).toNat + 1) s1 with ⟨_ | _, s2⟩
    · rfl
    · have hp : (forgetUnread s2).profile = s2.profile := rfl
      simp only [hp, xfer_transparent (frameBurstRead s2.profile.fifoAddr (statusFifoCount sb).toNat) s2]
      rcases xfer (frameBurstRead s2.profile.fifoAddr (statusFifoCount sb).toNat) s2 with ⟨_ | _, s3⟩ <;> rfl

theorem fifoWriteReply_transparent (p : List Byte) : Transparent fun s => fifoWriteReply (fifoWrite p s) := by
  intro s
  simp only [fifoWrite_transparent p s, fifoWriteReply]

theorem fifoReadReply_transparent : Transparent fun s => fifoReadReply (fifoRead s) := by
  intro s
  simp only [fifoRead_transparent s]
  rcases fifoRead s with ⟨_ | _, s'⟩ <;> rfl

theorem parseFrame_transparent (b d : List Byte) : Transparent (parseFrame b d) := by
  obtain ⟨code, data, -, e⟩ := parseFrame_cases b d
  intro s
  simp only [e]

theorem recvPacket_transparent : Transparent recvPacket := by
  intro s
  unfold recvPacket
  rw [fifoRead_transparent]
  rcases fifoRead s with ⟨_ | ⟨c, p⟩, s'⟩
  · rfl
  · exact parseFrame_transparent p (c :: p) s'

/-- A packet reads a session register only where it is written (R27). -/
theorem buildPacket_forgetUnread (cmd cf : Byte) (c : Color) (s : State) :
    buildPacket cmd cf c (forgetUnread s) = buildPacket cmd cf c s := by
  have ha : s.addrW = true → (forgetUnread s).addr = s.addr := fun h => if_pos h
  have hs : s.seqW = true → (forgetUnread s).seq = s.seq := fun h => if_pos h
  have hc : colorOf cf c (forgetUnread s) = colorOf cf c s := by
    unfold colorOf
    split
    · rfl
    · by_cases h : s.colorW = true <;> simp [forgetUnread, h]
  have haw : (forgetUnread s).addrW = s.addrW := rfl
  have hsw : (forgetUnread s).seqW = s.seqW := rfl
  unfold buildPacket
  rw [haw, hsw, hc]
  by_cases h1 : s.addrW = true
  · by_cases h2 : s.seqW = true
    · rw [ha h1, hs h2]
    · simp only [h2, Bool.false_eq_true, if_false]
  · simp only [h1, Bool.false_eq_true, if_false]

theorem build_transparent (cmd cf : Byte) (c : Color) : Transparent (build cmd cf c) := by
  intro s
  unfold build
  rw [buildPacket_forgetUnread]
  split
  · rfl
  · cases buildPacket cmd cf c s <;> rfl

/-- A register's read answers its bytes only where it is written (R27). -/
theorem readWritten_forgetUnread (w : Bool) (b : FaultBit) (data data' : List Byte) (s : State)
    (h : w = true → data' = data) :
    readWritten w b data' (forgetUnread s) =
      ((readWritten w b data s).1, forgetUnread (readWritten w b data s).2) := by
  cases w with
  | false => rfl
  | true => rw [h rfl]; rfl

/-! ### State changes that no unread value shows in -/

/-- f leads a state, and the state with its unread values forgotten, to states that differ in unread values only. -/
def Blind (f : State → State) : Prop := ∀ s, forgetUnread (f (forgetUnread s)) = forgetUnread (f s)

/-- A change that commutes with forgetting. -/
theorem blind_of_commutes {f : State → State} (h : ∀ s, f (forgetUnread s) = forgetUnread (f s)) : Blind f :=
  fun s => by rw [h, forgetUnread_idem]

theorem answer_blind {f : State → Reply × State} (h : Transparent f) : Blind fun s => answer (f s) :=
  blind_of_commutes fun s => by rw [h]; rfl

theorem writeAddr_blind (a : Address) : Blind fun s => s.writeAddr a := fun s =>
  SameRead.forgetUnread_eq { sameRead_forgetUnread s with rest := rfl, addr := fun _ => rfl }

theorem writeSeq_blind (v : Byte) : Blind fun s => s.writeSeq v := fun s =>
  SameRead.forgetUnread_eq { sameRead_forgetUnread s with rest := rfl, seq := fun _ => rfl }

theorem writeColor_blind (c : Color) : Blind fun s => s.writeColor c := fun s =>
  SameRead.forgetUnread_eq { sameRead_forgetUnread s with rest := rfl, color := fun _ => rfl }

theorem writeCtrl_blind (v : Byte) : Blind fun s => s.writeCtrl v := blind_of_commutes fun _ => rfl

theorem setPollLimit_blind (l : BitVec 32) : Blind fun s => s.setPollLimit l := blind_of_commutes fun _ => rfl

theorem respond_blind {f : State → State} (code : ResultCode) (data : List Byte) (h : Blind f) :
    Blind fun s => (f s).respond code data := fun s => by
  have e : ∀ t : State, forgetUnread (t.respond code data) = (forgetUnread t).respond code data := fun _ => rfl
  rw [e, e, h]

/-- SEQ moves on as it would have, since an unwritten SEQ stays unwritten (R27). -/
theorem advanceSeq_blind : Blind fun s => s.advanceSeq := fun s =>
  SameRead.forgetUnread_eq
    { sameRead_forgetUnread s with rest := rfl, seq := fun h => congrArg (· + 1) ((sameRead_forgetUnread s).seq h) }

theorem seqAdvance_blind (r : ResultCode) : Blind fun s => seqAdvance r s := by
  intro s
  have hc : (forgetUnread s).ctrl = s.ctrl := rfl
  simp only [seqAdvance, hc]
  split
  · split
    · exact advanceSeq_blind s
    · exact forgetUnread_idem s
  · exact advanceSeq_blind s

theorem send_blind (cmd cf : Byte) (c : Color) : Blind fun s => answer (send cmd cf c s) := by
  intro s
  simp only [send, buildPacket_forgetUnread]
  split
  · exact answer_blind (raiseError_transparent .illegalCommand []) s
  · cases buildPacket cmd cf c s with
    | error b => exact answer_blind (raiseFault_transparent b) s
    | ok p =>
      simp only [fifoWrite_transparent p s]
      exact respond_blind _ _ (seqAdvance_blind (fifoWrite p s).1) (fifoWrite p s).2

/-! ### INIT -/

theorem failInit_blind (code : ResultCode) (data : List Byte) : Blind (failInit code data) := fun s =>
  SameRead.forgetUnread_eq
    { sameRead_forgetUnread s with rest := rfl, cfgIdx := nofun, settleIdx := nofun, pollCnt := nofun }

theorem completeInit_blind : Blind completeInit := fun s =>
  SameRead.forgetUnread_eq
    { sameRead_forgetUnread s with rest := rfl, cfgIdx := nofun, settleIdx := nofun, pollCnt := nofun }

theorem setPhase_reset_blind : Blind fun s => s.setPhase .reset := fun s =>
  SameRead.forgetUnread_eq
    { sameRead_forgetUnread s with rest := rfl, cfgIdx := nofun, settleIdx := nofun, pollCnt := nofun }

/-- A poll phase begins with its counter at 0, and the other counters idle (R29). -/
theorem startPoll_blind {p : BuPhase} (hp : p = .readyPoll ∨ p = .idPoll) : Blind (startPoll p) := by
  obtain ⟨hc, hs⟩ : p ≠ .config ∧ p ≠ .settle := by rcases hp with rfl | rfl <;> simp
  exact fun s => SameRead.forgetUnread_eq
    { sameRead_forgetUnread s with
      rest := rfl, cfgIdx := fun h => absurd h hc, settleIdx := fun h => absurd h hs, pollCnt := fun _ => rfl }

theorem startConfig_blind : Blind startConfig := fun s =>
  SameRead.forgetUnread_eq
    { sameRead_forgetUnread s with rest := rfl, cfgIdx := fun _ => rfl, settleIdx := nofun, pollCnt := nofun }

theorem startSettle_blind : Blind startSettle := fun s =>
  SameRead.forgetUnread_eq
    { sameRead_forgetUnread s with rest := rfl, cfgIdx := nofun, settleIdx := fun _ => rfl, pollCnt := nofun }

theorem identityCheck_blind (v : Byte) : Blind (identityCheck v) := by
  intro s
  unfold identityCheck
  split
  · exact startConfig_blind s
  · exact failInit_blind .deviceMismatch [v] s

theorem phaseXportInit_blind : Blind phaseXportInit := by
  intro s
  simp only [phaseXportInit, xinit_transparent s]
  rcases xinit s with ⟨_ | _ | _, s'⟩
  · exact setPhase_reset_blind s'
  · exact failInit_blind _ _ s'
  · exact failInit_blind _ _ s'

theorem phaseReset_blind : Blind phaseReset := by
  intro s
  have hp : (forgetUnread s).profile = s.profile := rfl
  simp only [phaseReset, hp, xfer_transparent (frameStrobe s.profile.strobes.reset) s]
  rcases xfer (frameStrobe s.profile.strobes.reset) s with ⟨_ | _, s'⟩
  · exact startPoll_blind (.inl rfl) s'
  · exact failInit_blind _ _ s'

/-- An exchange leaves BU_PHASE as it is. -/
theorem poll_buPhase (s : State) : (poll s).2.buPhase = s.buPhase := by
  obtain ⟨o, -, e⟩ := xfer_cases framePoll s
  unfold poll
  rw [e]
  cases o <;> rfl

theorem statusRead_buPhase (a : RegAddr) (s : State) : (statusRead a s).2.buPhase = s.buPhase := by
  obtain ⟨o, -, e⟩ := xfer_cases (frameBurstRead a 1) s
  unfold statusRead
  rw [e]
  cases o <;> rfl

/-- In a poll phase the counter is read, so counting on commutes with forgetting. -/
theorem countPoll_forgetUnread {s : State} (h : s.buPhase = .readyPoll ∨ s.buPhase = .idPoll) :
    (forgetUnread s).setPollCnt ((forgetUnread s).pollCnt + 1) = forgetUnread (s.setPollCnt (s.pollCnt + 1)) := by
  rw [forgetUnread_pollCnt h]
  exact congrArg (forgetUnread s).setPollCnt (if_pos h).symm

theorem pollAgain_forgetUnread {s : State} (h : s.buPhase = .readyPoll ∨ s.buPhase = .idPoll) :
    forgetUnread (pollAgain (forgetUnread s)) = forgetUnread (pollAgain s) := by
  have hl : pollLimitReached (forgetUnread s) = pollLimitReached s := by
    unfold pollLimitReached
    rw [forgetUnread_pollCnt h]
    rfl
  unfold pollAgain
  rw [hl]
  split
  · exact failInit_blind _ _ s
  · exact forgetUnread_idem s

theorem phaseReadyPoll_forgetUnread {s : State} (h : s.buPhase = .readyPoll) :
    forgetUnread (phaseReadyPoll (forgetUnread s)) = forgetUnread (phaseReadyPoll s) := by
  have h' := (poll_buPhase s).trans h
  simp only [phaseReadyPoll, poll_transparent s]
  rcases hs : poll s with ⟨_ | sb, s'⟩
  · exact failInit_blind _ _ s'
  · rw [hs] at h'
    simp only [countPoll_forgetUnread (.inl h')]
    split
    · exact pollAgain_forgetUnread (.inl h')
    · exact startPoll_blind (.inr rfl) _

theorem phaseIdPoll_forgetUnread {s : State} (h : s.buPhase = .idPoll) :
    forgetUnread (phaseIdPoll (forgetUnread s)) = forgetUnread (phaseIdPoll s) := by
  have h' := (statusRead_buPhase s.profile.idRegAddr s).trans h
  have hp : (forgetUnread s).profile = s.profile := rfl
  simp only [phaseIdPoll, hp, statusRead_transparent s.profile.idRegAddr s]
  rcases hs : statusRead s.profile.idRegAddr s with ⟨_ | ⟨sb, v⟩, s'⟩
  · exact failInit_blind _ _ s'
  · rw [hs] at h'
    simp only [countPoll_forgetUnread (.inr h')]
    split
    · exact pollAgain_forgetUnread (.inr h')
    · exact identityCheck_blind v _

theorem nextEntry_forgetUnread {s : State} (h : s.buPhase = .config) :
    forgetUnread (nextEntry (forgetUnread s)) = forgetUnread (nextEntry s) := by
  have hp : (forgetUnread s).profile = s.profile := rfl
  have hset : (forgetUnread s).setCfgIdx (s.cfgIdx + 1) = forgetUnread (s.setCfgIdx (s.cfgIdx + 1)) :=
    congrArg (forgetUnread s).setCfgIdx (if_pos h).symm
  simp only [nextEntry, hp, forgetUnread_cfgIdx h, hset]
  split
  · exact forgetUnread_idem _
  · exact startSettle_blind _

theorem nextSettle_forgetUnread {s : State} (h : s.buPhase = .settle) :
    forgetUnread (nextSettle (forgetUnread s)) = forgetUnread (nextSettle s) := by
  have hp : (forgetUnread s).profile = s.profile := rfl
  have hset : (forgetUnread s).setSettleIdx (s.settleIdx + 1) = forgetUnread (s.setSettleIdx (s.settleIdx + 1)) :=
    congrArg (forgetUnread s).setSettleIdx (if_pos h).symm
  simp only [nextSettle, hp, forgetUnread_settleIdx h, hset]
  split
  · exact forgetUnread_idem _
  · exact completeInit_blind _

theorem phaseConfig_forgetUnread {s : State} (h : s.buPhase = .config) :
    forgetUnread (phaseConfig (forgetUnread s)) = forgetUnread (phaseConfig s) := by
  have hp : (forgetUnread s).profile = s.profile := rfl
  simp only [phaseConfig, hp, forgetUnread_cfgIdx h]
  cases s.profile.configTable[s.cfgIdx]? with
  | none => exact startSettle_blind s
  | some e =>
    simp only [xfer_transparent (frameSingleWrite e.1 e.2) s]
    obtain ⟨o, -, ex⟩ := xfer_cases (frameSingleWrite e.1 e.2) s
    rw [ex]
    cases o with
    | ok rx => exact nextEntry_forgetUnread h
    | fail => exact failInit_blind _ _ _

theorem phaseSettle_forgetUnread {s : State} (h : s.buPhase = .settle) :
    forgetUnread (phaseSettle (forgetUnread s)) = forgetUnread (phaseSettle s) := by
  have hp : (forgetUnread s).profile = s.profile := rfl
  simp only [phaseSettle, hp, forgetUnread_settleIdx h]
  cases (settleCodes s.profile)[s.settleIdx]? with
  | none => exact completeInit_blind s
  | some code =>
    simp only [xfer_transparent (frameStrobe code) s]
    obtain ⟨o, -, ex⟩ := xfer_cases (frameStrobe code) s
    rw [ex]
    cases o with
    | ok rx => exact nextSettle_forgetUnread h
    | fail => exact failInit_blind _ _ _

theorem bringUpStep_blind : Blind bringUpStep := by
  intro s
  have hb : (forgetUnread s).buPhase = s.buPhase := rfl
  unfold bringUpStep
  rw [hb]
  cases h : s.buPhase with
  | xportInit => exact phaseXportInit_blind s
  | reset => exact phaseReset_blind s
  | readyPoll => exact phaseReadyPoll_forgetUnread h
  | idPoll => exact phaseIdPoll_forgetUnread h
  | config => exact phaseConfig_forgetUnread h
  | settle => exact phaseSettle_forgetUnread h
  | uninit => exact forgetUnread_idem s
  | ready => exact forgetUnread_idem s
  | failed => exact forgetUnread_idem s

/-- INIT starts over, whatever BU_PHASE was. -/
theorem initStart_blind : Blind fun s => phaseXportInit (s.setPhase .xportInit) := by
  intro s
  have hset : forgetUnread ((forgetUnread s).setPhase .xportInit) = forgetUnread (s.setPhase .xportInit) :=
    SameRead.forgetUnread_eq
      { sameRead_forgetUnread s with rest := rfl, cfgIdx := nofun, settleIdx := nofun, pollCnt := nofun }
  exact (phaseXportInit_blind _).symm.trans ((congrArg (forgetUnread ∘ phaseXportInit) hset).trans
    (phaseXportInit_blind _))

/-! ### The step -/

/-- A host command acts alike on a state and on the state with its unread values forgotten. -/
theorem exec_forgetUnread {i : Instr} (hw : i.isWire = false) (s : State) :
    forgetOutcome (exec i (forgetUnread s)) = forgetOutcome (exec i s) := by
  have next : ∀ {f : State → State}, Blind f →
      forgetOutcome (.next (f (forgetUnread s))) = forgetOutcome (.next (f s)) :=
    fun h => congrArg Host.Outcome.next (h s)
  have read : ∀ (w : Bool) (b : FaultBit) (data data' : List Byte), (w = true → data' = data) →
      forgetOutcome (.next (answer (readWritten w b data' (forgetUnread s)))) =
        forgetOutcome (.next (answer (readWritten w b data s))) := fun w b data data' h => by
    rw [readWritten_forgetUnread w b data data' s h]
    exact congrArg Host.Outcome.next (forgetUnread_idem (answer (readWritten w b data s)))
  cases i with
  | init => exact next initStart_blind
  | setReg a v => exact next (answer_blind (setReg_transparent a v))
  | getReg a => exact next (answer_blind (getReg_transparent a))
  | strobe sel => exact next (answer_blind (strobe_transparent sel))
  | fifoWrite p => exact next (answer_blind (fifoWriteReply_transparent p))
  | fifoRead => exact next (answer_blind fifoReadReply_transparent)
  | build cmd cf c => exact next (answer_blind (build_transparent cmd cf c))
  | send cmd cf c => exact next (send_blind cmd cf c)
  | turnOn => exact next (send_blind 0x05 0x00 noColor)
  | turnOff => exact next (send_blind 0x07 0x00 noColor)
  | setColor c => exact next (send_blind 0x03 0x01 c)
  | learn m d => exact next (answer_blind (raiseError_transparent .notImplemented []))
  | parse b => exact next (answer_blind (parseFrame_transparent b []))
  | recvPacket => exact next (answer_blind recvPacket_transparent)
  | rgbToHsi r g b => exact next (answer_blind fun _ => rfl)
  | wrAddr a => exact next (respond_blind .ok [] (writeAddr_blind a))
  | rdAddr => exact read _ _ _ _ fun h => congrArg Address.bytes (if_pos h)
  | wrSeq v => exact next (respond_blind .ok [] (writeSeq_blind v))
  | rdSeq => exact read _ _ _ _ fun h => congrArg (fun v => [v]) (if_pos h)
  | wrColor c => exact next (respond_blind .ok [] (writeColor_blind c))
  | rdColor => exact read _ _ _ _ fun h => congrArg Color.bytes (if_pos h)
  | wrCtrl v => exact next (respond_blind .ok [] (writeCtrl_blind v))
  | rdCtrl => exact next (answer_blind fun _ => rfl)
  | wrPollLimit l => exact next (respond_blind .ok [] (setPollLimit_blind l))
  | rdPollLimit => exact next (answer_blind fun _ => rfl)
  | rdFault => exact next (answer_blind fun _ => rfl)
  | rdBustate => exact next (answer_blind fun _ => rfl)
  | _ => exact absurd hw (by simp [Instr.isWire])

theorem runCommand_forgetUnread (s : State) :
    forgetOutcome (runCommand (forgetUnread s)) = forgetOutcome (runCommand s) := by
  have hh : (forgetUnread s).hostIn = s.hostIn := rfl
  unfold runCommand
  rw [hh]
  cases hd : decode s.hostIn with
  | instr i rest => exact exec_forgetUnread (decode_isWire hd) (s.setHostIn rest)
  | unassignedCode b rest =>
    exact congrArg Host.Outcome.next (answer_blind (raiseError_transparent .illegalCommand []) (s.setHostIn rest))
  | incomplete =>
    simp only [waitForHost, hh]

theorem step_forgetUnread (s : State) : forgetOutcome (step (forgetUnread s)) = forgetOutcome (step s) := by
  have hp : (forgetUnread s).profile = s.profile := rfl
  have hr : (forgetUnread s).resetIn = s.resetIn := rfl
  have hb : (forgetUnread s).busy = s.busy := rfl
  unfold step legalStep
  rw [hp, hr, hb]
  split
  · split
    · rfl
    · split
      · exact congrArg Host.Outcome.next (bringUpStep_blind s)
      · exact runCommand_forgetUnread s
  · rfl

/-- Settles O47: a step goes alike from a state and from the state with its unread values forgotten, and that state is the
same for both. -/
theorem unreadValuesInvisible : Obligations.UnreadValuesInvisible := by
  intro s1 s2 h
  rw [← step_forgetUnread s1, h, step_forgetUnread s2]

end Sys2Proof.Machine
end

section
/-! SUPPORT. What an instruction may write (spec/10_state.md R23 to R31, R36), and the faults (R28, 60_exceptions.md R323). -/

namespace Sys2Proof.Machine

open Sys2Proof.Safety

/-! ### The inversion lemmas of exec and of the step -/

theorem wireExchange_next {tx : List Byte} {s t : State} (h : wireExchange tx s = .next t) :
    ∃ evs o, t = s.afterEvents evs o := by
  obtain ⟨o, -, e⟩ := wireExchange_cases tx s
  rw [e] at h
  injection h with h
  exact ⟨_, _, h.symm⟩

theorem wireStrobeExchange_next (st : Strobe) {s t : State} (h : wireStrobeExchange st s = .next t) :
    ∃ evs o, t = s.afterEvents evs o := by
  unfold wireStrobeExchange at h
  split at h
  · exact wireExchange_next h
  · cases h

theorem exec_wire_next {i : Instr} {s t : State} (hw : i.isWire = true) (h : exec i s = .next t) :
    ∃ evs o, t = s.afterEvents evs o := by
  cases i with
  | wireSingleWrite | wireSingleRead | wireBurstWrite | wireBurstRead | wireStatusPoll => exact wireExchange_next h
  | wireStrobeReset => exact wireStrobeExchange_next .reset h
  | wireStrobeFsTxOn => exact wireStrobeExchange_next .fsTxOn h
  | wireStrobeXtalOff => exact wireStrobeExchange_next .xtalOff h
  | wireStrobeCalibrate => exact wireStrobeExchange_next .calibrate h
  | wireStrobeRx => exact wireStrobeExchange_next .rx h
  | wireStrobeTx => exact wireStrobeExchange_next .tx h
  | wireStrobeIdle => exact wireStrobeExchange_next .idle h
  | wireStrobePowerDown => exact wireStrobeExchange_next .powerDown h
  | wireStrobeFlushRx => exact wireStrobeExchange_next .flushRx h
  | wireStrobeFlushTx => exact wireStrobeExchange_next .flushTx h
  | _ => exact absurd hw Bool.false_ne_true

/-- The first step of INIT writes the bring-up registers only (spec/41_bringup.md R170). -/
theorem execInit_frame {s t : State} (h : execInit s = .next t) : SameButBringUp s t := by
  obtain ⟨o, -, e⟩ := execInit_cases s
  rw [e] at h
  injection h with h
  subst h
  cases o <;> rfl

section Frame

variable {s t : State} (h : SameButBringUp s t)
include h

theorem profile_of_sameButBringUp : t.profile = s.profile := by rw [h]

theorem fault_of_sameButBringUp : t.fault = s.fault := by rw [h]

theorem ctrl_of_sameButBringUp : t.ctrl = s.ctrl := by rw [h]

end Frame

/-- Everything an instruction that answers a next state does: a wire form adds its event, INIT writes the bring-up
registers, and another host operation has a `HostEffect`. -/
theorem exec_next_cases {i : Instr} {s t : State} (h : exec i s = .next t) :
    (∃ evs o, t = s.afterEvents evs o) ∨ (i = .init ∧ SameButBringUp s t) ∨ HostEffect i s t := by
  by_cases hw : i.isWire = true
  · exact .inl (exec_wire_next hw h)
  · by_cases hi : i = .init
    · subst hi
      exact .inr (.inl ⟨rfl, execInit_frame h⟩)
    · obtain ⟨t', e, ht⟩ := exec_host_cases i s (Bool.eq_false_of_not_eq_true hw) hi
      obtain rfl : t' = t := by rw [h] at e; injection e with e; exact e.symm
      exact .inr (.inr ht)

/-- Everything a step that is no block reset can be. -/
theorem step_cases_of_not_reset {s t : State} (hr : s.resetIn = false) (h : step s = .next t) :
    (s.busy = true ∧ t = bringUpStep s) ∨
    (s.busy = false ∧ ∃ i rest, i.isWire = false ∧ exec i (s.setHostIn rest) = .next t) ∨
    (s.busy = false ∧ ∃ rest, t = illegalCommand (s.setHostIn rest)) := by
  obtain ⟨-, ⟨hr', -⟩ | ⟨-, hb, ht⟩ | ⟨-, hb, ⟨i, rest, -, hw, he⟩ | ⟨-, rest, -, ht⟩⟩⟩ := step_cases h
  · exact absurd (hr.symm.trans hr') nofun
  · exact .inl ⟨hb, ht⟩
  · exact .inr (.inl ⟨hb, i, rest, hw, he⟩)
  · exact .inr (.inr ⟨hb, rest, ht⟩)

/-! ### Who writes which register -/

section Writers

variable {i : Instr} {s r : State} {code : ResultCode} (h : RegisterEffect i s code r)
include h

theorem RegisterEffect.addr_eq (hi : ∀ a, i ≠ .wrAddr a) : r.addr = s.addr ∧ r.addrW = s.addrW := by
  cases h with
  | wrAddr a h => exact absurd h (hi a)
  | _ => exact ⟨rfl, rfl⟩

theorem RegisterEffect.color_eq (hi : ∀ c, i ≠ .wrColor c) : r.color = s.color ∧ r.colorW = s.colorW := by
  cases h with
  | wrColor c h => exact absurd h (hi c)
  | _ => exact ⟨rfl, rfl⟩

theorem RegisterEffect.ctrl_eq (hi : ∀ v, i ≠ .wrCtrl v) : r.ctrl = s.ctrl := by
  cases h with
  | wrCtrl v h => exact absurd h (hi v)
  | _ => rfl

theorem RegisterEffect.pollLimit_eq (hi : ∀ l, i ≠ .wrPollLimit l) : r.pollLimit = s.pollLimit := by
  cases h with
  | wrPollLimit l h => exact absurd h (hi l)
  | _ => rfl

/-- The sends move SEQ on, but they write no unwritten SEQ (R27). -/
theorem RegisterEffect.seq_eq (hi : ∀ v, i ≠ .wrSeq v) :
    r.seqW = s.seqW ∧ (sendOperands i = none → r.seq = s.seq) := by
  cases h with
  | wrSeq v h => exact absurd h (hi v)
  | advance _ _ hs _ => exact ⟨rfl, fun hn => absurd hs (by simp [hn])⟩
  | _ => exact ⟨rfl, fun _ => rfl⟩

/-- No host operation but INIT writes more than the session and context registers. -/
theorem RegisterEffect.rest :
    r = { s with addr := r.addr, addrW := r.addrW, seq := r.seq, seqW := r.seqW, color := r.color, colorW := r.colorW,
                 ctrl := r.ctrl, pollLimit := r.pollLimit } := by
  cases h <;> rfl

end Writers

/-- Settles O44: what an instruction writes is given by `exec_next_cases`, and each register that a host operation writes
names its writers. -/
theorem onlyWritersWrite : Obligations.OnlyWritersWrite := by
  intro i s t h
  obtain ⟨evs, o, rfl⟩ | ⟨rfl, hf⟩ | ⟨b, rfl⟩ | ⟨code, data, evs, o, r, hr, -, rfl⟩ := exec_next_cases h
  · exact ⟨fun _ => ⟨rfl, rfl⟩, fun _ => ⟨rfl, rfl⟩, fun _ => rfl, fun _ => rfl, fun _ => ⟨rfl, rfl, rfl, rfl⟩,
      fun _ => ⟨rfl, fun _ => rfl⟩, rfl, rfl, rfl⟩
  · rw [hf]
    exact ⟨fun _ => ⟨rfl, rfl⟩, fun _ => ⟨rfl, rfl⟩, fun _ => rfl, fun _ => rfl, fun hi => absurd rfl hi,
      fun _ => ⟨rfl, fun _ => rfl⟩, rfl, rfl, rfl⟩
  · exact ⟨fun _ => ⟨rfl, rfl⟩, fun _ => ⟨rfl, rfl⟩, fun _ => rfl, fun _ => rfl, fun _ => ⟨rfl, rfl, rfl, rfl⟩,
      fun _ => ⟨rfl, fun _ => rfl⟩, rfl, rfl, rfl⟩
  · have bringUp : r.buPhase = s.buPhase ∧ r.cfgIdx = s.cfgIdx ∧ r.settleIdx = s.settleIdx ∧ r.pollCnt = s.pollCnt := by
      rw [hr.rest]
      exact ⟨rfl, rfl, rfl, rfl⟩
    have inputs : r.profile = s.profile ∧ r.hostIn = s.hostIn ∧ r.resetIn = s.resetIn := by
      rw [hr.rest]
      exact ⟨rfl, rfl, rfl⟩
    exact ⟨hr.addr_eq, hr.color_eq, hr.ctrl_eq, hr.pollLimit_eq, fun _ => bringUp, hr.seq_eq, inputs⟩

/-! ### Faults -/

/-- An instruction leaves FAULT as it is, or it sets one bit, answers FAULT and does nothing else (R28, R323). -/
theorem exec_fault {i : Instr} {s t : State} (h : exec i s = .next t) :
    t.fault = s.fault ∨ ∃ b, t = (s.setFaultBit b).respond .fault [] := by
  obtain ⟨evs, o, rfl⟩ | ⟨-, hf⟩ | ⟨b, rfl⟩ | ⟨code, data, evs, o, r, hr, -, rfl⟩ := exec_next_cases h
  · exact .inl rfl
  · exact .inl (fault_of_sameButBringUp hf)
  · exact .inr ⟨b, rfl⟩
  · have hf : r.fault = s.fault := by rw [hr.rest]
    exact .inl hf

theorem faultMask_cases (b : FaultBit) : faultMask b = 0x01 ∨ faultMask b = 0x02 ∨ faultMask b = 0x04 := by
  cases b <;> decide

/-- Settles O45: a running INIT and an unassigned code leave FAULT alone, and a command has the two cases of `exec_fault`. -/
theorem faultBitsSticky : Obligations.FaultBitsSticky := by
  intro s t hr h
  obtain ⟨hb, rfl⟩ | ⟨-, i, rest, -, he⟩ | ⟨-, rest, rfl⟩ := step_cases_of_not_reset hr h
  · exact .inl (fault_of_sameButBringUp (bringUpStep_frame hb))
  · obtain hf | ⟨b, rfl⟩ := exec_fault he
    · exact .inl hf
    · exact .inr ⟨faultMask b, faultMask_cases b, rfl⟩
  · exact .inl rfl

/-! ### A send that is refused or faults -/

theorem exec_of_sendOperands {i : Instr} {cmd cf : Byte} {c : Color} (s : State)
    (h : sendOperands i = some (cmd, cf, c)) : exec i s = .next (answer (send cmd cf c s)) := by
  cases i with
  | send | turnOn | turnOff | setColor =>
    injection h with h
    obtain ⟨rfl, rfl, rfl⟩ : _ = cmd ∧ _ = cf ∧ _ = c := by simpa only [Prod.mk.injEq] using h
    rfl
  | _ => cases h

/-- The operands BUILD and SEND let through are the legal ones (spec/30_encoding.md R105). -/
theorem operandsRefused_eq_false_iff (cmd cf : Byte) :
    (cmdRefused cmd || cfRefused cf) = false ↔ LegalOperands cmd cf := by
  simp [cmdRefused, cfRefused, LegalOperands, or_iff_not_imp_left]

/-- The fault of a packet is that of the first unwritten register (spec/60_exceptions.md R324). -/
theorem buildPacket_of_firstUnwritten {cmd cf : Byte} {c : Color} {s : State} {bit : Byte}
    (hcf : cf = 0x00 ∨ cf = 0x01) (h : firstUnwritten s cf = some bit) :
    ∃ b, buildPacket cmd cf c s = .error b ∧ faultMask b = bit := by
  unfold firstUnwritten at h
  unfold buildPacket colorOf
  cases ha : s.addrW with
  | false => exact ⟨.addrUnwritten, by simp, by simpa [ha, faultMask] using h⟩
  | true =>
    cases hs : s.seqW with
    | false => exact ⟨.seqUnwritten, by simp, by simpa [ha, hs, faultMask] using h⟩
    | true =>
      obtain ⟨⟨rfl, hc⟩, hbit⟩ : (cf = 0x00 ∧ s.colorW = false) ∧ 0x04 = bit := by simpa [ha, hs] using h
      exact ⟨.colorUnwritten, by simp [hc], hbit⟩

/-- Settles O30: the operands are checked before the packet is built, and the packet is built before any exchange. -/
theorem sendRefusedBeforeExchange : Obligations.SendRefusedBeforeExchange := by
  intro s i cmd cf c hi
  rw [exec_of_sendOperands s hi]
  refine ⟨fun illegal => ?_, fun legal bit hbit => ?_⟩
  · have hr : (cmdRefused cmd || cfRefused cf) = true := by
      rw [← operandsRefused_eq_false_iff, Bool.not_eq_false] at illegal
      exact illegal
    rw [send, if_pos hr]
    rfl
  · have hr := (operandsRefused_eq_false_iff cmd cf).2 legal
    obtain ⟨b, hb, rfl⟩ := buildPacket_of_firstUnwritten (cmd := cmd) (c := c) legal.2 hbit
    rw [send, hr, hb]
    rfl

end Sys2Proof.Machine
end

section
/-! SUPPORT. What a step appends to TRACE and to the responses (spec/10_state.md R32, 30_encoding.md R94, 60_exceptions.md
R320), and the invariant of the registers (10_state.md R28 to R31). -/

namespace Sys2Proof.Machine

open Sys2Proof.Safety

/-! ### The block's own exchanges are transactions -/

theorem mem_allStrobes (st : Strobe) : st ∈ allStrobes := by cases st <;> decide

/-- The code of a strobe is a transaction by itself (spec/30_encoding.md R92). -/
theorem decodeWire_strobeCode {p : Profile} {st : Strobe} {code : Byte} (h : strobeCode p st = some code) :
    (decodeWire p [code]).isSome = true := by
  obtain ⟨st', hst⟩ : ∃ st', strobeOfCode p code = some st' :=
    Option.isSome_iff_exists.1 (List.find?_isSome.2 ⟨st, mem_allStrobes st, decide_eq_true h⟩)
  simp only [decodeWire, hst]
  split <;> rfl

theorem decodeWire_burstHeader (p : Profile) (rw : Rw) (a : RegAddr) :
    (decodeWire p [opc rw .burst a]).isSome = true := by
  simp only [decodeWire, headerRw_opc, headerMode_opc]
  split
  · rfl
  · cases strobeOfCode p (opc rw .burst a) with
    | some st => rfl
    | none => cases rw <;> rfl

theorem decodeWire_strobeBytes {p : Profile} {st : Strobe} (h : strobeBytes p st ≠ []) :
    (decodeWire p (strobeBytes p st)).isSome = true := by
  cases hc : strobeCode p st with
  | none => exact absurd (by rw [strobeBytes, hc]; rfl) h
  | some code =>
    rw [strobeBytes, hc]
    exact decodeWire_strobeCode hc

/-- The bytes of a wire form are a transaction, in any profile (spec/30_encoding.md R94). -/
theorem decodeWire_encode_isSome {p : Profile} {i : Instr} (hw : i.isWire = true) (he : encode p i ≠ []) :
    (decodeWire p (encode p i)).isSome = true := by
  cases i with
  | wireSingleWrite a v => simp only [encode, decodeWire, headerRw_opc, headerMode_opc, if_true, Option.isSome_some]
  | wireSingleRead a => simp only [encode, decodeWire, headerRw_opc, headerMode_opc, and_self, if_true, Option.isSome_some]
  | wireBurstWrite a bs =>
    cases bs with
    | nil => exact decodeWire_burstHeader p .write a
    | cons b bs => simp only [encode, decodeWire, headerRw_opc, headerMode_opc, Option.isSome_some]
  | wireBurstRead a n =>
    cases n with
    | zero => exact decodeWire_burstHeader p .read a
    | succ n =>
      have hz : zeros (n + 1) = 0x00 :: zeros n := rfl
      simp only [encode, hz, decodeWire, headerRw_opc, headerMode_opc, zeros_length, if_true, Option.isSome_some]
  | wireStatusPoll => rfl
  | wireStrobeReset | wireStrobeFsTxOn | wireStrobeXtalOff | wireStrobeCalibrate | wireStrobeRx | wireStrobeTx
  | wireStrobeIdle | wireStrobePowerDown | wireStrobeFlushRx | wireStrobeFlushTx => exact decodeWire_strobeBytes he
  | _ => exact absurd hw Bool.false_ne_true

/-- The exchange of a wire form, validly answered, is an event of the link the block may make. -/
theorem eventOk_encode {p : Profile} (i : Instr) {o : XferOutcome} (hw : i.isWire = true) (he : encode p i ≠ [])
    (ho : AnswersBytes (encode p i).length o) : EventOk p (.xfer (encode p i) o) :=
  ⟨decodeWire_encode_isSome hw he, ho⟩

theorem eventOk_frameStrobe {p : Profile} {st : Strobe} {code : Byte} {o : XferOutcome} (h : strobeCode p st = some code)
    (ho : AnswersBytes 1 o) : EventOk p (.xfer (frameStrobe code) o) := ⟨decodeWire_strobeCode h, ho⟩

theorem eventOk_frameBurstWrite (p : Profile) (a : RegAddr) (bs : List Byte) {o : XferOutcome}
    (ho : AnswersBytes (bs.length + 1) o) : EventOk p (.xfer (frameBurstWrite a bs) o) :=
  eventOk_encode (.wireBurstWrite a bs) rfl (List.cons_ne_nil _ _) ho

theorem eventOk_frameBurstRead (p : Profile) (a : RegAddr) (n : Nat) {o : XferOutcome}
    (ho : AnswersBytes (n + 1) o) : EventOk p (.xfer (frameBurstRead a n) o) :=
  eventOk_encode (.wireBurstRead a n) rfl (List.cons_ne_nil _ _) (by simpa [encode] using ho)

theorem eventOk_framePoll (p : Profile) {o : XferOutcome} (ho : AnswersBytes 1 o) : EventOk p (.xfer framePoll o) :=
  eventOk_encode .wireStatusPoll rfl (List.cons_ne_nil _ _) ho

/-! ### What a host operation logs -/

/-- t's TRACE is that of s and then events the block may make. -/
def Logged (s t : State) : Prop := ∃ evs, t.trace = s.trace ++ evs ∧ ∀ e ∈ evs, EventOk s.profile e

theorem Logged.nothing {s t : State} (h : t.trace = s.trace) : Logged s t := ⟨[], by simp [h], by simp⟩

theorem Logged.events {s t : State} {evs : List Event} (h : t.trace = s.trace ++ evs)
    (he : ∀ e ∈ evs, EventOk s.profile e) : Logged s t := ⟨evs, h, he⟩

theorem Logged.event {s t : State} {e : Event} (h : t.trace = s.trace ++ [e]) (he : EventOk s.profile e) : Logged s t :=
  ⟨[e], h, by simpa using he⟩

theorem setReg_logged (a v : Byte) (s : State) : Logged s (answer (setReg a v s)) := by
  unfold setReg
  split
  · exact .nothing rfl
  · obtain ⟨o, ho, e⟩ := xfer_cases (frameSingleWrite (addrField a) v) s
    have hev := eventOk_encode (p := s.profile) (.wireSingleWrite (addrField a) v) rfl (List.cons_ne_nil _ _) ho.1
    rw [e]
    cases o <;> exact .event rfl hev

theorem getReg_logged (a : Byte) (s : State) : Logged s (answer (getReg a s)) := by
  unfold getReg
  split
  · exact .nothing rfl
  · obtain ⟨o, ho, e⟩ := xfer_cases (frameSingleRead (addrField a)) s
    have hev := eventOk_encode (p := s.profile) (.wireSingleRead (addrField a)) rfl (List.cons_ne_nil _ _) ho.1
    rw [e]
    cases o <;> exact .event rfl hev

theorem selectorCode_some {p : Profile} {sel code : Byte} (h : selectorCode p sel = some code) :
    ∃ st, strobeCode p st = some code := by
  unfold selectorCode at h
  split at h
  · exact ⟨_, h⟩
  · cases h

theorem strobe_logged (sel : Byte) (s : State) : Logged s (answer (strobe sel s)) := by
  unfold strobe
  split
  · exact .nothing rfl
  · rename_i code hc
    obtain ⟨st, hst⟩ := selectorCode_some hc
    obtain ⟨o, ho, e⟩ := xfer_cases (frameStrobe code) s
    have hev := eventOk_frameStrobe hst ho.1
    rw [e]
    cases o <;> exact .event rfl hev

theorem fifoWriteRun_eventsOk {s : State} {p : List Byte} {code : Byte} {evs : List Event}
    (h : FifoWriteRun s p code evs) : ∀ e ∈ evs, EventOk s.profile e := by
  have data : ∀ {o}, AnswersBytes (p.length + 1) o →
      EventOk s.profile (.xfer ((0x40 ||| s.profile.fifoAddr.setWidth 8) :: p) o) :=
    fun ho => frameBurstWrite_eq _ p ▸ eventOk_frameBurstWrite s.profile s.profile.fifoAddr p ho
  obtain ⟨_, -, ⟨-, -, rfl⟩ | ⟨-, o1, h1, ⟨rfl, -, rfl⟩ | ⟨-, o2, h2, -, rfl⟩⟩⟩ := h
  · exact fun e he => absurd he List.not_mem_nil
  · simpa using data h1.1
  · simpa using ⟨data h1.1, eventOk_frameStrobe (p := s.profile) (st := .tx) rfl h2.1⟩

theorem fifoReadRun_eventsOk {s : State} {r : Except Byte (List Byte)} {evs : List Event}
    (h : FifoReadRun s r evs) : ∀ e ∈ evs, EventOk s.profile e := by
  have poll : ∀ {o}, AnswersBytes 1 o → EventOk s.profile (.xfer [0x00] o) := eventOk_framePoll s.profile
  obtain ⟨o1, h1, ⟨rfl, -, rfl⟩ | ⟨sb, _, -, -, ⟨-, -, rfl⟩ | ⟨-, o2, h2, rfl, -⟩⟩⟩ := h
  · simpa using poll h1.1
  · simpa using poll h1.1
  · have read := eventOk_frameBurstRead s.profile s.profile.fifoAddr _ h2.1
    rw [frameBurstRead_eq] at read
    simpa using ⟨poll h1.1, read⟩

theorem fifoWrite_logged (p : List Byte) (s : State) : Logged s (answer (fifoWriteReply (fifoWrite p s))) := by
  obtain ⟨r, evs, o, h, -, e⟩ := fifoWrite_cases p s
  rw [e]
  exact .events rfl (fifoWriteRun_eventsOk h)

theorem fifoRead_logged (s : State) : Logged s (answer (fifoReadReply (fifoRead s))) := by
  obtain ⟨r, evs, o, h, -, e⟩ := fifoRead_cases s
  rw [e]
  cases r <;> exact .events rfl (fifoReadRun_eventsOk h)

theorem recvPacket_logged (s : State) : Logged s (answer (recvPacket s)) := by
  obtain ⟨r, evs, o, h, -, e⟩ := fifoRead_cases s
  unfold recvPacket
  rw [e]
  cases r with
  | error code => exact .events rfl (fifoReadRun_eventsOk h)
  | ok q =>
    obtain ⟨code, data, -, e'⟩ := parseFrame_cases q.2 (q.1 :: q.2)
    simp only [e']
    exact .events rfl (fifoReadRun_eventsOk h)

theorem parse_logged (b : List Byte) (s : State) : Logged s (answer (parse b s)) := by
  obtain ⟨code, data, -, e⟩ := parseFrame_cases b []
  rw [parse, e]
  exact .nothing rfl

theorem build_logged (cmd cf : Byte) (c : Color) (s : State) : Logged s (answer (build cmd cf c s)) := by
  unfold build
  split
  · exact .nothing rfl
  · split <;> exact .nothing rfl

theorem seqAdvance_trace (r : ResultCode) (s : State) : (seqAdvance r s).trace = s.trace := by
  unfold seqAdvance
  split
  · split <;> rfl
  · rfl

theorem send_logged (cmd cf : Byte) (c : Color) (s : State) : Logged s (answer (send cmd cf c s)) := by
  unfold send
  split
  · exact .nothing rfl
  · split
    · exact .nothing rfl
    · rename_i p _
      obtain ⟨r, evs, o, h, -, e⟩ := fifoWrite_cases p s
      rw [e]
      exact .events (seqAdvance_trace r _) (fifoWriteRun_eventsOk h)

theorem readWritten_logged (w : Bool) (b : FaultBit) (data : List Byte) (s : State) :
    Logged s (answer (readWritten w b data s)) := by
  unfold readWritten
  split <;> exact .nothing rfl

/-- Every exchange of a host operation other than INIT is one of R94's transactions. -/
theorem exec_host_logged {i : Instr} {s t : State} (hw : i.isWire = false) (hi : i ≠ .init)
    (h : exec i s = .next t) : Logged s t := by
  have next : ∀ {u : State}, Host.Outcome.next u = (.next t : Host.Outcome State Fault Refusal) →
      Logged s u → Logged s t := fun e hu => by injection e with e; exact e ▸ hu
  cases i with
  | init => exact absurd rfl hi
  | setReg a v => exact next h (setReg_logged a v s)
  | getReg a => exact next h (getReg_logged a s)
  | strobe sel => exact next h (strobe_logged sel s)
  | fifoWrite p => exact next h (fifoWrite_logged p s)
  | fifoRead => exact next h (fifoRead_logged s)
  | build cmd cf c => exact next h (build_logged cmd cf c s)
  | send cmd cf c => exact next h (send_logged cmd cf c s)
  | turnOn => exact next h (send_logged 0x05 0x00 noColor s)
  | turnOff => exact next h (send_logged 0x07 0x00 noColor s)
  | setColor c => exact next h (send_logged 0x03 0x01 c s)
  | parse b => exact next h (parse_logged b s)
  | recvPacket => exact next h (recvPacket_logged s)
  | rdAddr | rdSeq | rdColor => exact next h (readWritten_logged _ _ _ s)
  | learn | rgbToHsi | wrAddr | wrSeq | wrColor | wrCtrl | rdCtrl | wrPollLimit | rdPollLimit | rdFault | rdBustate =>
    exact next h (.nothing rfl)
  | _ => exact absurd hw (by simp [Instr.isWire])

/-! ### What a step appends -/

/-- t has the responses of s and at most one more, which begins with a result code. -/
def RespondsOnce (s t : State) : Prop :=
  t.responses = s.responses ∨ ∃ code data, t.responses = s.responses ++ [resultByte code :: data]

/-- t is s with at most two events and one response more, and its profile is that of s. -/
structure Appends (s t : State) : Prop where
  profile : t.profile = s.profile
  events : ∃ evs, t.trace = s.trace ++ evs ∧ evs.length ≤ 2 ∧ ∀ e ∈ evs, EventOk s.profile e
  responses : RespondsOnce s t

/-- What a running INIT does between two exchanges: it logs nothing, and it ends with a response or goes on. -/
def Proceeds (s t : State) : Prop := t.trace = s.trace ∧ RespondsOnce s t

theorem Proceeds.goesOn {s t : State} (ht : t.trace = s.trace) (hr : t.responses = s.responses) : Proceeds s t :=
  ⟨ht, .inl hr⟩

theorem failInit_proceeds (code : ResultCode) (data : List Byte) (s : State) : Proceeds s (failInit code data s) :=
  ⟨rfl, .inr ⟨code, data, rfl⟩⟩

theorem completeInit_proceeds (s : State) : Proceeds s (completeInit s) := ⟨rfl, .inr ⟨.ok, [], rfl⟩⟩

theorem pollAgain_proceeds (s : State) : Proceeds s (pollAgain s) := by
  unfold pollAgain
  split
  · exact failInit_proceeds .timeout [] s
  · exact .goesOn rfl rfl

theorem identityCheck_proceeds (v : Byte) (s : State) : Proceeds s (identityCheck v s) := by
  unfold identityCheck
  split
  · exact .goesOn rfl rfl
  · exact failInit_proceeds .deviceMismatch [v] s

theorem nextEntry_proceeds (s : State) : Proceeds s (nextEntry s) := by
  unfold nextEntry
  split <;> exact .goesOn rfl rfl

theorem nextSettle_proceeds (s : State) : Proceeds s (nextSettle s) := by
  unfold nextSettle
  split
  · exact .goesOn rfl rfl
  · exact completeInit_proceeds (s.setSettleIdx (s.settleIdx + 1))

theorem bringUpNext_proceeds (s : State) (o : XferOutcome) : Proceeds s (bringUpNext s o) := by
  cases o with
  | fail => exact failInit_proceeds .transferFail [] s
  | ok rx =>
    unfold bringUpNext
    simp only
    split
    · exact .goesOn rfl rfl
    · split
      · exact pollAgain_proceeds (s.setPollCnt (s.pollCnt + 1))
      · exact .goesOn rfl rfl
    · split
      · exact pollAgain_proceeds (s.setPollCnt (s.pollCnt + 1))
      · exact identityCheck_proceeds _ (s.setPollCnt (s.pollCnt + 1))
    · exact nextEntry_proceeds s
    · exact nextSettle_proceeds s
    · exact .goesOn rfl rfl

/-- The wire form a running INIT makes next has bytes. -/
theorem bringUpForm_wire {s : State} {i : Instr} (h : bringUpForm s = some i) :
    i.isWire = true ∧ encode s.profile i ≠ [] := by
  cases hp : s.buPhase <;> simp only [bringUpForm, hp, reduceCtorEq] at h
  case reset | readyPoll | idPoll =>
    obtain rfl := Option.some.inj h
    exact ⟨rfl, List.cons_ne_nil _ _⟩
  case config =>
    obtain ⟨e, -, rfl⟩ := Option.map_eq_some_iff.1 h
    exact ⟨rfl, List.cons_ne_nil _ _⟩
  case settle =>
    have hm := List.mem_of_getElem? h
    simp only [List.mem_cons, List.not_mem_nil, or_false] at hm
    rcases hm with rfl | rfl | rfl | rfl <;> exact ⟨rfl, List.cons_ne_nil _ _⟩

theorem Appends.noEvent {s t : State} (hp : t.profile = s.profile) (ht : t.trace = s.trace) (hr : RespondsOnce s t) :
    Appends s t := ⟨hp, ⟨[], by simp [ht], by simp, by simp⟩, hr⟩

theorem Appends.oneEvent {s t : State} {e : Event} (hp : t.profile = s.profile) (ht : t.trace = s.trace ++ [e])
    (he : EventOk s.profile e) (hr : RespondsOnce s t) : Appends s t :=
  ⟨hp, ⟨[e], ht, by simp, by simpa using he⟩, hr⟩

theorem phaseXportInit_appends (s : State) : Appends s (phaseXportInit s) := by
  obtain ⟨o, -, e⟩ := xinit_cases s
  unfold phaseXportInit
  rw [e]
  cases o with
  | ok => exact .oneEvent rfl rfl trivial (.inl rfl)
  | openFail => exact .oneEvent rfl rfl trivial (.inr ⟨.transportOpenFail, [], rfl⟩)
  | configFail => exact .oneEvent rfl rfl trivial (.inr ⟨.transportConfigFail, [], rfl⟩)

theorem bringUpStep_appends {s : State} (hb : s.busy = true) : Appends s (bringUpStep s) := by
  cases hf : bringUpForm s with
  | some i =>
    obtain ⟨hw, he⟩ := bringUpForm_wire hf
    obtain ⟨o, ho, e⟩ := bringUpStep_form hf
    obtain ⟨ht, hr⟩ := bringUpNext_proceeds (s.exchanged (encode s.profile i) o) o
    rw [← e] at ht hr
    exact .oneEvent (profile_of_sameButBringUp (bringUpStep_frame hb)) ht (eventOk_encode i hw he ho.1) hr
  | none =>
    obtain ⟨-, e⟩ | ⟨-, -, e⟩ | ⟨-, -, e⟩ := bringUpStep_noForm hb hf <;> rw [e]
    · exact phaseXportInit_appends s
    · exact .noEvent rfl rfl (.inl rfl)
    · exact .noEvent rfl rfl (.inr ⟨.ok, [], rfl⟩)

theorem HostEffect.appends {i : Instr} {s t : State} (h : HostEffect i s t) (hl : Logged s t) : Appends s t := by
  obtain ⟨b, rfl⟩ | ⟨code, data, evs, o, r, hr, hlen, rfl⟩ := h
  · exact .noEvent rfl rfl (.inr ⟨.fault, [], rfl⟩)
  · obtain ⟨hp, ht, hresp⟩ : r.profile = s.profile ∧ r.trace = s.trace ∧ r.responses = s.responses := by
      rw [hr.rest]
      exact ⟨rfl, rfl, rfl⟩
    obtain ⟨evs', hevs, hok⟩ := hl
    have htr : ((r.afterEvents evs o).respond code data).trace = s.trace ++ evs := by simp [ht]
    obtain rfl : evs = evs' := List.append_cancel_left (htr.symm.trans hevs)
    exact ⟨hp, ⟨evs, htr, hlen, hok⟩, .inr ⟨code, data, by simp [hresp]⟩⟩

theorem exec_appends {i : Instr} {s t : State} (hw : i.isWire = false) (h : exec i s = .next t) : Appends s t := by
  by_cases hi : i = .init
  · subst hi
    obtain rfl := Host.Outcome.next.inj h
    obtain ⟨hp, he, hr⟩ := phaseXportInit_appends (s.setPhase .xportInit)
    exact ⟨hp, he, hr⟩
  · obtain ⟨t', e, ht⟩ := exec_host_cases i s hw hi
    obtain rfl : t' = t := Host.Outcome.next.inj (e.symm.trans h)
    exact ht.appends (exec_host_logged hw hi h)

/-- What a step that is no block reset does to TRACE and to the responses (spec/10_state.md R32). -/
theorem step_appends {s t : State} (hr : s.resetIn = false) (h : step s = .next t) : Appends s t := by
  obtain ⟨hb, rfl⟩ | ⟨-, i, rest, hw, he⟩ | ⟨-, rest, rfl⟩ := step_cases_of_not_reset hr h
  · exact bringUpStep_appends hb
  · obtain ⟨hp, hev, hresp⟩ := exec_appends hw he
    exact ⟨hp, hev, hresp⟩
  · exact .noEvent rfl rfl (.inr ⟨.illegalCommand, [], rfl⟩)

/-- Settles O58: it is part of `step_appends`. -/
theorem traceOnlyGrows : Obligations.TraceOnlyGrows := by
  intro s t hr h
  obtain ⟨hp, ⟨evs, ht, hlen, -⟩, hresp⟩ := step_appends hr h
  refine ⟨⟨evs, hlen, ht⟩, ?_, hp⟩
  obtain hresp | ⟨code, data, hresp⟩ := hresp
  · exact ⟨[], by simp, by simp [hresp]⟩
  · exact ⟨[resultByte code :: data], by simp, hresp⟩

/-! ### The bring-up registers between two steps -/

/-- The part of the invariant that speaks of BU_PHASE and the counters (spec/10_state.md R29, 41_bringup.md R173, R174). -/
structure BringUpInRange (s : State) : Prop where
  notXportInit : s.buPhase ≠ .xportInit
  cfgInRange : s.buPhase = .config → s.cfgIdx < 33
  settleInRange : s.buPhase = .settle → s.settleIdx < 4
  pollInRange : s.buPhase = .readyPoll ∨ s.buPhase = .idPoll → s.pollLimit ≠ 0 → s.pollCnt < s.pollLimit.toNat

/-- Phases that use no counter. -/
theorem BringUpInRange.idle {s : State} (h : s.busy = false ∨ s.buPhase = .reset) : BringUpInRange s := by
  have hne : ∀ p, phaseBusy p = true → p ≠ .reset → s.buPhase ≠ p := by
    rintro p hb hr rfl
    exact h.elim (fun h => absurd (hb.symm.trans h) nofun) hr
  exact ⟨hne _ rfl nofun, fun e => absurd e (hne _ rfl nofun), fun e => absurd e (hne _ rfl nofun),
    fun e => (e.elim (hne _ rfl nofun) (hne _ rfl nofun)).elim⟩

theorem failInit_inRange (code : ResultCode) (data : List Byte) (s : State) : BringUpInRange (failInit code data s) :=
  .idle (.inl rfl)

theorem completeInit_inRange (s : State) : BringUpInRange (completeInit s) := .idle (.inl rfl)

theorem startPoll_inRange {p : BuPhase} (hp : p = .readyPoll ∨ p = .idPoll) (s : State) :
    BringUpInRange (startPoll p s) := by
  have limit : s.pollLimit ≠ 0 → 0 < s.pollLimit.toNat := fun h =>
    Nat.pos_of_ne_zero fun h0 => h (BitVec.eq_of_toNat_eq h0)
  rcases hp with rfl | rfl <;> exact ⟨nofun, nofun, nofun, fun _ => limit⟩

theorem startConfig_inRange (s : State) : BringUpInRange (startConfig s) :=
  ⟨nofun, fun _ => Nat.zero_lt_succ 32, nofun, nofun⟩

theorem startSettle_inRange (s : State) : BringUpInRange (startSettle s) :=
  ⟨nofun, nofun, fun _ => Nat.zero_lt_succ 3, nofun⟩

theorem identityCheck_inRange (v : Byte) (s : State) : BringUpInRange (identityCheck v s) := by
  unfold identityCheck
  split
  · exact startConfig_inRange s
  · exact failInit_inRange .deviceMismatch [v] s

/-- A poll that goes on is below its bound (spec/41_bringup.md R173). -/
theorem pollAgain_inRange {s : State} (hp : s.buPhase = .readyPoll ∨ s.buPhase = .idPoll) :
    BringUpInRange (pollAgain s) := by
  unfold pollAgain
  split
  · exact failInit_inRange .timeout [] s
  · rename_i hl
    have limit : s.pollLimit ≠ 0 → s.pollCnt < s.pollLimit.toNat := by simpa [pollLimitReached] using hl
    rcases hp with hp | hp <;> exact ⟨by simp [hp], by simp [hp], by simp [hp], fun _ => limit⟩

theorem nextEntry_inRange {s : State} (hl : s.profile.configTable.length = 33) (hp : s.buPhase = .config) :
    BringUpInRange (nextEntry s) := by
  unfold nextEntry
  split
  · rename_i hlt
    exact ⟨by simp [hp], fun _ => hl ▸ hlt, by simp [hp], by simp [hp]⟩
  · exact startSettle_inRange (s.setCfgIdx (s.cfgIdx + 1))

theorem nextSettle_inRange {s : State} (hp : s.buPhase = .settle) : BringUpInRange (nextSettle s) := by
  unfold nextSettle
  split
  · rename_i hlt
    exact ⟨by simp [hp], by simp [hp], fun _ => hlt, by simp [hp]⟩
  · exact completeInit_inRange (s.setSettleIdx (s.settleIdx + 1))

theorem bringUpNext_inRange {s : State} (hl : s.profile.configTable.length = 33) (hx : s.buPhase ≠ .xportInit)
    (o : XferOutcome) : BringUpInRange (bringUpNext s o) := by
  cases o with
  | fail => exact failInit_inRange .transferFail [] s
  | ok rx =>
    cases hp : s.buPhase <;> simp only [bringUpNext, hp]
    case xportInit => exact absurd hp hx
    case reset => exact startPoll_inRange (.inl rfl) s
    case readyPoll =>
      split
      · exact pollAgain_inRange (.inl hp)
      · exact startPoll_inRange (.inr rfl) _
    case idPoll =>
      split
      · exact pollAgain_inRange (.inr hp)
      · exact identityCheck_inRange _ _
    case config => exact nextEntry_inRange hl hp
    case settle => exact nextSettle_inRange hp
    case uninit | ready | failed => exact .idle (.inl (congrArg phaseBusy hp))

theorem bringUpStep_inRange {s : State} (hb : s.busy = true) (hl : s.profile.configTable.length = 33)
    (hx : s.buPhase ≠ .xportInit) : BringUpInRange (bringUpStep s) := by
  cases hf : bringUpForm s with
  | some i =>
    obtain ⟨o, -, e⟩ := bringUpStep_form hf
    rw [e]
    exact bringUpNext_inRange (s := s.exchanged (encode s.profile i) o) hl hx o
  | none =>
    obtain ⟨hp, -⟩ | ⟨-, -, e⟩ | ⟨-, -, e⟩ := bringUpStep_noForm hb hf
    · exact absurd hp hx
    · rw [e]
      exact startSettle_inRange s
    · rw [e]
      exact completeInit_inRange s

/-- After a host command no counter is in use: INIT stands before its RESET strobe or is over, and no other command
touches BU_PHASE (R29, R181). -/
theorem exec_inRange {i : Instr} {s t : State} (hb : s.busy = false) (h : exec i s = .next t) : BringUpInRange t := by
  by_cases hi : i = .init
  · subst hi
    obtain ⟨o, -, e⟩ := execInit_cases s
    obtain rfl := Host.Outcome.next.inj (e.symm.trans h)
    cases o with
    | ok => exact .idle (.inr rfl)
    | openFail => exact .idle (.inl rfl)
    | configFail => exact .idle (.inl rfl)
  · obtain ⟨-, -, -, -, hbu, -⟩ := onlyWritersWrite i s t h
    exact .idle (.inl ((congrArg phaseBusy (hbu hi).1).trans hb))

/-! ### The invariant -/

/-- Bits 7:3 are no FAULT bits (spec/10_state.md R28). -/
theorem fault_reserved_of_bit {f bit : Byte} (hf : f &&& 0xF8 = 0x00) (hbit : bit = 0x01 ∨ bit = 0x02 ∨ bit = 0x04) :
    (f ||| bit) &&& 0xF8 = 0x00 := by
  have hb : bit &&& 0xF8 = 0x00 := by rcases hbit with rfl | rfl | rfl <;> decide
  rw [BitVec.and_comm, BitVec.and_or_distrib_left, BitVec.and_comm, hf, BitVec.and_comm, hb]
  rfl

/-- A write of CTRL keeps bit 0 only (spec/10_state.md R30). -/
theorem ctrlKept_reserved (v : Byte) : ctrlKept v &&& 0xFE = 0x00 := by
  rw [ctrlKept, BitVec.and_assoc]
  exact BitVec.and_zero

theorem exec_ctrl {i : Instr} {s t : State} (h : exec i s = .next t) :
    t.ctrl = s.ctrl ∨ ∃ v, t.ctrl = ctrlKept v := by
  by_cases hi : ∃ v, i = .wrCtrl v
  · obtain ⟨v, rfl⟩ := hi
    obtain rfl := Host.Outcome.next.inj h
    exact .inr ⟨v, rfl⟩
  · obtain ⟨-, -, hc, -⟩ := onlyWritersWrite i s t h
    exact .inl (hc fun v e => hi ⟨v, e⟩)

theorem step_ctrl {s t : State} (hr : s.resetIn = false) (h : step s = .next t) :
    t.ctrl = s.ctrl ∨ ∃ v, t.ctrl = ctrlKept v := by
  obtain ⟨hb, rfl⟩ | ⟨-, i, rest, -, he⟩ | ⟨-, rest, rfl⟩ := step_cases_of_not_reset hr h
  · exact .inl (ctrl_of_sameButBringUp (bringUpStep_frame hb))
  · exact exec_ctrl (s := s.setHostIn rest) he
  · exact .inl rfl

theorem step_inRange {s t : State} (hs : Inv s) (hr : s.resetIn = false) (h : step s = .next t) : BringUpInRange t := by
  have table := (profileWf_iff_legalProfile.1 hs.profileOk).configTable_length
  obtain ⟨hb, rfl⟩ | ⟨hb, i, rest, -, he⟩ | ⟨hb, rest, rfl⟩ := step_cases_of_not_reset hr h
  · exact bringUpStep_inRange hb table hs.notXportInit
  · exact exec_inRange (s := s.setHostIn rest) hb he
  · exact .idle (.inl hb)

theorem resultByte_le (code : ResultCode) : (resultByte code).toNat ≤ 0x0C := by cases code <;> decide

theorem inv_blockReset {s : State} (hp : profileWf s.profile = true) : Inv (blockReset s) where
  profileOk := hp
  faultReserved := BitVec.zero_and
  ctrlReserved := BitVec.zero_and
  notXportInit := nofun
  cfgInRange := nofun
  settleInRange := nofun
  pollInRange := nofun
  responsesOk := nofun
  traceOk := nofun

theorem inv_of_step {s t : State} (hs : Inv s) (hr : s.resetIn = false) (h : step s = .next t) : Inv t := by
  obtain ⟨hp, ⟨evs, ht, -, hev⟩, hresp⟩ := step_appends hr h
  obtain ⟨hx, hcfg, hsettle, hpoll⟩ := step_inRange hs hr h
  refine ⟨hp ▸ hs.profileOk, ?_, ?_, hx, hcfg, hsettle, hpoll, ?_, ?_⟩
  · obtain hf | ⟨bit, hbit, hf⟩ := faultBitsSticky s t hr h
    · exact hf ▸ hs.faultReserved
    · rw [hf]
      exact fault_reserved_of_bit hs.faultReserved hbit
  · obtain hc | ⟨v, hc⟩ := step_ctrl hr h
    · exact hc ▸ hs.ctrlReserved
    · exact hc ▸ ctrlKept_reserved v
  · intro r hmem
    obtain hresp | ⟨code, data, hresp⟩ := hresp
    · exact hs.responsesOk r (hresp ▸ hmem)
    · rw [hresp, List.mem_append, List.mem_singleton] at hmem
      obtain hmem | rfl := hmem
      · exact hs.responsesOk r hmem
      · exact ⟨resultByte code, data, rfl, resultByte_le code⟩
  · intro e hmem
    rw [ht, List.mem_append] at hmem
    rw [hp]
    exact hmem.elim (hs.traceOk e) (hev e)

/-- Settles O57: block reset leads to a state that meets the invariant, and every other step keeps it, part by part. -/
theorem stepKeepsInvariant : Obligations.StepKeepsInvariant := by
  intro s t hs h
  cases hr : s.resetIn with
  | false => exact inv_of_step hs hr h
  | true =>
    obtain ⟨hp, ⟨-, rfl⟩ | ⟨hr', -⟩ | ⟨hr', -⟩⟩ := step_cases h
    · exact inv_blockReset hp
    · exact absurd (hr.symm.trans hr') nofun
    · exact absurd (hr.symm.trans hr') nofun

/-! ### The state after reset -/

/-- Settles O55: the fields of the reset state. -/
theorem resetValues : Obligations.ResetValues := ⟨rfl, rfl, rfl, rfl, rfl, rfl, rfl, rfl, rfl⟩

/-- The reference profile meets R8, whatever its symbolic table holds. -/
theorem profileWf_reference : profileWf Profile.reference = true := by decide +kernel

/-- Settles O56: the reset state is its own block reset, no INIT runs in it, and its TRACE is empty. -/
theorem resetMeetsInvariants : Obligations.ResetMeetsInvariants :=
  ⟨inv_blockReset (s := State.reset) profileWf_reference, nofun, fun _ => ⟨rfl, nofun⟩⟩

end Sys2Proof.Machine
end

section
/-! SUPPORT. The exchanges of SET_REG, GET_REG and the sends (spec/40_register_access.md R134, R135, 42_packet_codec.md R214),
the answers an exchange may get (20_memory.md R62), and what REFCHIP answers to them (R75 to R78). -/

namespace Sys2Proof.Machine

open Sys2Proof.Safety

/-! ### Every answer -/

/-- Settles O12: the answer stands on the tape, and an exchange takes a tape entry of its length as it stands. -/
theorem exchangeAdmitsEveryAnswer : Obligations.ExchangeAdmitsEveryAnswer := by
  intro s tx o ho
  let tape : Oracle := { s.oracle with xfer := [o] }
  exact ⟨tape, _, xfer_of_tape tx (s.setOracle tape) o rfl ho, rfl, rfl, rfl⟩

/-! ### SET_REG and GET_REG of an address in range -/

/-- The result of an operation whose last exchange answered o. -/
def transferResult : XferOutcome → ResultCode
  | .ok _ => .ok
  | .fail => .transferFail

/-- The data GET_REG returns: the second received byte, none after a failure (R135). -/
def readData : XferOutcome → List Byte
  | .ok rx => [rxByte rx 1]
  | .fail => []

theorem addrRefused_eq_false {a : Byte} (ha : a.toNat < 0x40) : addrRefused a = false := by
  simpa [addrRefused] using ha

/-- Everything SET_REG does at an address in range: one write exchange and its result. -/
theorem exec_setReg_cases (v : Byte) (s : State) {a : Byte} (ha : a.toNat < 0x40) :
    ∃ o, AnswerAt s 0 2 o ∧ exec (.setReg a v) s =
      .next ((s.afterEvents [.xfer (frameSingleWrite (addrField a) v) o] s.oracle.nextXfer).respond (transferResult o) []) := by
  obtain ⟨o, ho, e⟩ := xfer_cases (frameSingleWrite (addrField a) v) s
  refine ⟨o, ho, ?_⟩
  rw [exec, execSetReg, setReg, addrRefused_eq_false ha, e]
  cases o <;> rfl

/-- Everything GET_REG does at an address in range: one read exchange, its result and the byte read. -/
theorem exec_getReg_cases (s : State) {a : Byte} (ha : a.toNat < 0x40) :
    ∃ o, AnswerAt s 0 2 o ∧ exec (.getReg a) s =
      .next ((s.afterEvents [.xfer (frameSingleRead (addrField a)) o] s.oracle.nextXfer).respond
        (transferResult o) (readData o)) := by
  obtain ⟨o, ho, e⟩ := xfer_cases (frameSingleRead (addrField a)) s
  refine ⟨o, ho, ?_⟩
  rw [exec, execGetReg, getReg, addrRefused_eq_false ha, e]
  cases o <;> rfl

/-! ### A send of a written session -/

theorem firstUnwritten_eq_none {s : State} {cf : Byte} :
    firstUnwritten s cf = none ↔ s.addrW = true ∧ s.seqW = true ∧ (cf = 0x00 → s.colorW = true) := by
  unfold firstUnwritten
  cases s.addrW <;> cases s.seqW <;> simp

/-- The packet of a written session is R210's, with the colour R211 chooses. -/
theorem buildPacket_of_written (cmd : Byte) {cf : Byte} (c : Color) {s : State} (hcf : cf = 0x00 ∨ cf = 0x01)
    (h : firstUnwritten s cf = none) : buildPacket cmd cf c s = .ok (sessionPacket s cmd cf c) := by
  obtain ⟨ha, hs, hc⟩ := firstUnwritten_eq_none.1 h
  unfold buildPacket colorOf
  obtain rfl | rfl := hcf
  · simp [ha, hs, hc rfl, sessionPacket, pkt, preamble, Address.bytes, Color.bytes]
  · simp [ha, hs, sessionPacket, pkt, preamble, Address.bytes, Color.bytes]

/-- Everything a send of legal operands and a written session does: a FIFO_WRITE of the packet, the sequence step and the
result of the FIFO_WRITE (R214). -/
theorem exec_send_cases {s : State} {i : Instr} {cmd cf : Byte} {c : Color} (hi : sendOperands i = some (cmd, cf, c))
    (legal : LegalOperands cmd cf) (written : firstUnwritten s cf = none) :
    ∃ r evs o, FifoWriteRun s (sessionPacket s cmd cf c) (resultByte r) evs ∧
      exec i s = .next ((seqAdvance r (s.afterEvents evs o)).respond r []) := by
  obtain ⟨r, evs, o, run, -, e⟩ := fifoWrite_cases (sessionPacket s cmd cf c) s
  refine ⟨r, evs, o, run, ?_⟩
  rw [exec_of_sendOperands s hi, send, (operandsRefused_eq_false_iff cmd cf).2 legal,
    buildPacket_of_written cmd c legal.2 written]
  simp only [Bool.false_eq_true, if_false, e]
  rfl

theorem seqAdvance_responses (r : ResultCode) (s : State) : (seqAdvance r s).responses = s.responses := by
  unfold seqAdvance
  split
  · split <;> rfl
  · rfl

/-- A FIFO_WRITE that returns OK made both exchanges, and neither failed (R137). -/
theorem fifoWriteRun_ok {s : State} {p : List Byte} {evs : List Event} (h : FifoWriteRun s p 0x00 evs) :
    ∃ rx rx', evs = [.xfer (frameBurstWrite s.profile.fifoAddr p) (.ok rx),
      .xfer (frameStrobe s.profile.strobes.tx) (.ok rx')] := by
  obtain ⟨_, -, ⟨-, hcode, -⟩ | ⟨-, o1, -, ⟨-, hcode, -⟩ | ⟨hne, o2, -, hcode, rfl⟩⟩⟩ := h
  · exact absurd hcode (by decide)
  · exact absurd hcode (by decide)
  · rw [frameBurstWrite_eq]
    cases o1 with
    | fail => exact absurd rfl hne
    | ok rx =>
      cases o2 with
      | fail => exact absurd hcode (by decide)
      | ok rx' => exact ⟨rx, rx', rfl⟩

/-! ### The strobe a code names -/

/-- Two strobes of a legal profile do not share a code (spec/00_scope.md R8). -/
theorem strobeCode_injective {p : Profile} (legal : LegalProfile p) {st st' : Strobe} {b : Byte}
    (h : strobeCode p st = some b) (h' : strobeCode p st' = some b) : st = st' := by
  have distinct := List.pairwise_filterMap.1 legal.codes_nodup
  have symmetric : Std.Symm fun st st' => ∀ b, strobeCode p st = some b → ∀ b', strobeCode p st' = some b' → b ≠ b' :=
    ⟨fun _ _ hne b hb b' hb' => (hne b' hb' b hb).symm⟩
  by_contra hne
  exact distinct.forall (mem_allStrobes st) (mem_allStrobes st') hne b h b h' rfl

/-- In a legal profile the code of a strobe names that strobe. -/
theorem strobeOfCode_strobeCode {p : Profile} (legal : LegalProfile p) {st : Strobe} {b : Byte}
    (h : strobeCode p st = some b) : strobeOfCode p b = some st := by
  obtain ⟨st', hst'⟩ : ∃ st', strobeOfCode p b = some st' :=
    Option.isSome_iff_exists.1 (List.find?_isSome.2 ⟨st, mem_allStrobes st, decide_eq_true h⟩)
  have hb : strobeCode p st' = some b := by
    rw [strobeOfCode] at hst'
    simpa using List.find?_some hst'
  rw [hst', strobeCode_injective legal hb h]

/-! ### What REFCHIP answers -/

theorem refAnswer_singleWrite (p : Profile) (c : RefChip) (a : RegAddr) (v : Byte) :
    refAnswer p c (frameSingleWrite a v) =
      ([refStatus c, refStatus c], refTick { c with reg := c.reg.set a.toNat v }) := by
  simp [frameSingleWrite, refAnswer, refAccess, -opc_write_single_field]

theorem refAnswer_singleRead (p : Profile) (c : RefChip) (a : RegAddr) :
    refAnswer p c (frameSingleRead a) = ([refStatus c, refReg c a.toNat], refTick c) := by
  simp [frameSingleRead, refAnswer, refAccess, -opc_read_single_field]

/-- A burst write of a payload to the FIFO address queues it (R77 (5)). -/
theorem refAnswer_fifoWrite_state (p : Profile) (c : RefChip) {d : List Byte} (hd : d ≠ []) :
    (refAnswer p c (frameBurstWrite p.fifoAddr d)).2 = refTick { c with txq := c.txq ++ d } := by
  obtain ⟨b, bs, rfl⟩ := List.exists_cons_of_ne_nil hd
  simp [frameBurstWrite, refAnswer, refAccess, -opc_write_burst_field]

theorem refAnswer_strobe {p : Profile} (legal : LegalProfile p) (c : RefChip) {st : Strobe} {code : Byte}
    (h : strobeCode p st = some code) : refAnswer p c (frameStrobe code) = ([refStatus c], refStrobe c st) := by
  simp only [frameStrobe, refAnswer, strobeOfCode_strobeCode legal h]

/-- An answered exchange that follows REFCHIP has REFCHIP's answer, and the rest follows from REFCHIP's next state. -/
theorem refFollows_ok_cons {p : Profile} {c c' : RefChip} {tx rx : List Byte} {es : List Event}
    (h : refFollows p c (.xfer tx (.ok rx) :: es) = some c') :
    rx = (refAnswer p c tx).1 ∧ refFollows p (refAnswer p c tx).2 es = some c' := by
  rw [refFollows] at h
  split at h
  · exact ⟨‹_›, h⟩
  · cases h

theorem refReg_refTick (c : RefChip) (n : Nat) : refReg (refTick c) n = refReg c n := rfl

/-- REFCHIP's register holds what was written to it. -/
theorem refReg_set {c : RefChip} (hc : c.reg.length = 64) (a : RegAddr) (v : Byte) :
    refReg { c with reg := c.reg.set a.toNat v } a.toNat = v := by
  have ha : a.toNat < 64 := a.isLt
  simp [refReg, List.getD_eq_getElem?_getD, Nat.mod_eq_of_lt ha, hc, ha]

/-- A write and then a read of the same register, both REFCHIP's: the byte read is the byte written. -/
theorem refFollows_write_read {p : Profile} {c c' : RefChip} {a : RegAddr} {v : Byte} {rx rx' : List Byte}
    (hc : c.reg.length = 64)
    (h : refFollows p c [.xfer (frameSingleWrite a v) (.ok rx), .xfer (frameSingleRead a) (.ok rx')] = some c') :
    rxByte rx' 1 = v := by
  obtain ⟨-, h⟩ := refFollows_ok_cons h
  obtain ⟨rfl, -⟩ := refFollows_ok_cons h
  rw [refAnswer_singleRead, refAnswer_singleWrite, rxByte, refReg_refTick, refReg_set hc]
  rfl

/-- The two exchanges of a FIFO_WRITE, both REFCHIP's: the queue and the payload go on the air as one packet (R78). -/
theorem refFollows_fifoWrite {p : Profile} (legal : LegalProfile p) {c c' : RefChip} {d rx rx' : List Byte} (hd : d ≠ [])
    (h : refFollows p c [.xfer (frameBurstWrite p.fifoAddr d) (.ok rx), .xfer (frameStrobe p.strobes.tx) (.ok rx')] = some c') :
    c'.air = c.air ++ [c.txq ++ d] ∧ c'.txq = [] ∧ c'.cstate = .idle := by
  obtain ⟨-, h⟩ := refFollows_ok_cons h
  obtain ⟨-, h⟩ := refFollows_ok_cons h
  rw [refAnswer_fifoWrite_state p c hd, refAnswer_strobe legal _ (st := .tx) rfl] at h
  injection h with h
  subst h
  exact ⟨rfl, rfl, rfl⟩

/-! ### The obligations -/

/-- Settles O59: each operation is one exchange; neither failed, so both answers are REFCHIP's, and the register read is the
one written. -/
theorem refchipRoundTrip : Obligations.RefchipRoundTrip := by
  intro s c a v hmax hc
  have ha : a.toNat < 0x40 := by omega
  obtain ⟨o1, -, e1⟩ := exec_setReg_cases v s ha
  obtain ⟨o2, -, e2⟩ := exec_getReg_cases
    ((s.afterEvents [.xfer (frameSingleWrite (addrField a) v) o1] s.oracle.nextXfer).respond (transferResult o1) []) ha
  refine ⟨_, _, [.xfer (frameSingleWrite (addrField a) v) o1, .xfer (frameSingleRead (addrField a)) o2], e1, e2,
    List.append_assoc _ _ _, fun follows noFail => ?_⟩
  cases o1 with
  | fail => exact absurd List.mem_cons_self (noFail _)
  | ok rx =>
    cases o2 with
    | fail => exact absurd (List.mem_cons_of_mem _ List.mem_cons_self) (noFail _)
    | ok rx' =>
      obtain ⟨c', hc'⟩ := Option.isSome_iff_exists.1 follows
      have read : readData (.ok rx') = [v] := congrArg (fun b => [b]) (refFollows_write_read hc hc')
      rw [read]
      exact List.append_assoc _ _ _

/-- Settles O60: a send that answers OK made both exchanges of its FIFO_WRITE, and REFCHIP puts the queue, empty before, and
the packet on the air. -/
theorem refchipSendReachesAir : Obligations.RefchipSendReachesAir := by
  intro s i cmd cf c chip wf hi legal written empty
  obtain ⟨r, evs, o, run, e⟩ := exec_send_cases hi legal written
  refine ⟨_, evs, e, seqAdvance_trace r _, fun chip' follows answered => ?_⟩
  have ok : resultByte r = 0x00 := by
    simpa [State.respond, seqAdvance_responses] using answered
  rw [ok] at run
  obtain ⟨rx, rx', rfl⟩ := fifoWriteRun_ok run
  have sent := refFollows_fifoWrite (profileWf_iff_legalProfile.1 wf) (List.cons_ne_nil _ _) follows
  rwa [empty, List.nil_append] at sent

end Sys2Proof.Machine
end

section
/-! SUPPORT. The host command codec (spec/30_encoding.md R101 to R105): decoding and encoding are inverse to each other, what was
read stands when more bytes arrive, and the decoder waits only for bytes that are missing. -/

namespace Sys2Proof.Machine

/-! ### Operation codes -/

@[simp] theorem hostOpOfCode_hostCode (op : HostOp) : hostOpOfCode (hostCode op) = some op := by cases op <;> rfl

theorem hostCode_of_hostOpOfCode {b : Byte} {op : HostOp} (h : hostOpOfCode b = some op) : hostCode op = b := by
  simpa using List.find?_some h

/-- A code outside R103's table names no operation. -/
theorem hostOpOfCode_eq_none {b : Byte} (h : b ∉ allHostOps.map hostCode) : hostOpOfCode b = none := by
  refine List.find?_eq_none.2 fun op hop hb => h ?_
  rw [← of_decide_eq_true hb]
  exact List.mem_map_of_mem hop

/-! ### 32-bit operands, least significant byte first (R101) -/

theorem fromLe32_eq_append (b0 b1 b2 b3 : Byte) : fromLe32 b0 b1 b2 b3 = b3 ++ b2 ++ b1 ++ b0 := by
  ext k hk
  grind [fromLe32]

theorem toNat_fromLe32 (b0 b1 b2 b3 : Byte) :
    (fromLe32 b0 b1 b2 b3).toNat = b0.toNat + 256 * b1.toNat + 65536 * b2.toNat + 16777216 * b3.toNat := by
  rw [fromLe32_eq_append, BitVec.toNat_append, BitVec.toNat_append, BitVec.toNat_append,
    ← Nat.shiftLeft_add_eq_or_of_lt b0.isLt, ← Nat.shiftLeft_add_eq_or_of_lt b1.isLt,
    ← Nat.shiftLeft_add_eq_or_of_lt b2.isLt]
  omega

theorem toLe32_fromLe32 (b0 b1 b2 b3 : Byte) : toLe32 (fromLe32 b0 b1 b2 b3) = [b0, b1, b2, b3] := by
  have value := toNat_fromLe32 b0 b1 b2 b3
  simp only [toLe32, List.cons.injEq, and_true, ← BitVec.toNat_inj, BitVec.toNat_setWidth, BitVec.toNat_ushiftRight,
    Nat.shiftRight_eq_div_pow]
  omega

theorem fromLe32_bytes (l : BitVec 32) :
    fromLe32 (l.setWidth 8) ((l >>> 8).setWidth 8) ((l >>> 16).setWidth 8) ((l >>> 24).setWidth 8) = l := by
  simp only [← BitVec.toNat_inj, toNat_fromLe32, BitVec.toNat_setWidth, BitVec.toNat_ushiftRight,
    Nat.shiftRight_eq_div_pow]
  omega

/-! ### List operands -/

/-- A list operand is no longer than its length byte can say (R101). -/
def ListFits (i : Instr) : Prop := ∀ l, i = .fifoWrite l ∨ i = .parse l → l.length ≤ 255

@[simp] theorem listFits_fifoWrite {l : List Byte} : ListFits (.fifoWrite l) ↔ l.length ≤ 255 := by simp [ListFits]

@[simp] theorem listFits_parse {l : List Byte} : ListFits (.parse l) ↔ l.length ≤ 255 := by simp [ListFits]

theorem decodeOperands_counted {l : List Byte} (rest : List Byte) (h : l.length ≤ 255) :
    decodeOperands .fifoWrite (counted l ++ rest) = some (.fifoWrite l, rest) ∧
    decodeOperands .parse (counted l ++ rest) = some (.parse l, rest) := by
  have hn : (BitVec.ofNat 8 l.length).toNat = l.length := Nat.mod_eq_of_lt (Nat.lt_succ_of_le h)
  simp [counted, decodeOperands, hn]

/-- The bytes a length byte counts, and those after them. -/
theorem counted_take_append_drop {n : Byte} {bs : List Byte} (h : n.toNat ≤ bs.length) :
    (bs.take n.toNat).length ≤ 255 ∧ counted (bs.take n.toNat) ++ bs.drop n.toNat = n :: bs := by
  rw [counted, List.length_take_of_le h, BitVec.ofNat_toNat, BitVec.setWidth_eq, List.cons_append, List.take_append_drop]
  exact ⟨Nat.le_of_lt_succ n.isLt, rfl⟩

/-! ### What the decoder reads -/

/-- A command is read when its operands are. -/
theorem decode_of_operands (op : HostOp) {bs rest : List Byte} {i : Instr}
    (h : decodeOperands op bs = some (i, rest)) : decode (hostCode op :: bs) = .instr i rest := by
  simp only [decode, hostOpOfCode_hostCode, h]

theorem decode_unassigned {b : Byte} (bs : List Byte) (h : hostOpOfCode b = none) :
    decode (b :: bs) = .unassignedCode b bs := by
  simp only [decode, h]

/-- Everything the decoder can make of a first byte and those after it. -/
theorem decode_cons_cases (b : Byte) (bs : List Byte) :
    (hostOpOfCode b = none ∧ decode (b :: bs) = .unassignedCode b bs) ∨
    ∃ op, b = hostCode op ∧
      ((decodeOperands op bs = none ∧ decode (b :: bs) = .incomplete) ∨
       ∃ i rest, decodeOperands op bs = some (i, rest) ∧ decode (b :: bs) = .instr i rest) := by
  cases hop : hostOpOfCode b with
  | none => exact .inl ⟨rfl, decode_unassigned bs hop⟩
  | some op =>
    obtain rfl := hostCode_of_hostOpOfCode hop
    refine .inr ⟨op, rfl, ?_⟩
    cases hd : decodeOperands op bs with
    | none => exact .inl ⟨rfl, by simp only [decode, hop, hd]⟩
    | some r => exact .inr ⟨r.1, r.2, rfl, decode_of_operands op hd⟩

/-- The operand bytes that were read, after the operation's code, are the instruction's encoding. -/
theorem decodeOperands_eq_some : ∀ {op : HostOp} {bs rest : List Byte} {i : Instr},
    decodeOperands op bs = some (i, rest) → ListFits i ∧ ∀ p, hostCode op :: bs = encode p i ++ rest
  | .init, _, _, _, rfl | .fifoRead, _, _, _, rfl | .turnOn, _, _, _, rfl | .turnOff, _, _, _, rfl
  | .recvPacket, _, _, _, rfl | .rdAddr, _, _, _, rfl | .rdSeq, _, _, _, rfl | .rdColor, _, _, _, rfl
  | .rdCtrl, _, _, _, rfl | .rdPollLimit, _, _, _, rfl | .rdFault, _, _, _, rfl | .rdBustate, _, _, _, rfl
  | .getReg, _ :: _, _, _, rfl | .strobe, _ :: _, _, _, rfl | .wrSeq, _ :: _, _, _, rfl | .wrCtrl, _ :: _, _, _, rfl
  | .setReg, _ :: _ :: _, _, _, rfl
  | .setColor, _ :: _ :: _ :: _, _, _, rfl | .rgbToHsi, _ :: _ :: _ :: _, _, _, rfl
  | .wrColor, _ :: _ :: _ :: _, _, _, rfl
  | .build, _ :: _ :: _ :: _ :: _ :: _, _, _, rfl | .send, _ :: _ :: _ :: _ :: _ :: _, _, _, rfl
  | .wrAddr, _ :: _ :: _ :: _ :: _ :: _ :: _ :: _ :: _ :: _, _, _, rfl => ⟨nofun, fun _ => rfl⟩
  | .learn, _ :: _ :: _ :: _ :: _ :: _, _, _, rfl | .wrPollLimit, _ :: _ :: _ :: _ :: _, _, _, rfl =>
    ⟨nofun, fun _ => by rw [encode, toLe32_fromLe32]; rfl⟩
  | .fifoWrite, n :: bs, _, _, h | .parse, n :: bs, _, _, h => by
    by_cases hn : n.toNat ≤ bs.length
    · rw [decodeOperands, if_pos hn] at h
      obtain ⟨rfl, rfl⟩ := Prod.mk.inj (Option.some.inj h)
      obtain ⟨fits, bytes⟩ := counted_take_append_drop hn
      exact ⟨by simpa only [listFits_fifoWrite, listFits_parse] using fits,
        fun _ => by rw [encode, List.cons_append, bytes]⟩
    · rw [decodeOperands, if_neg hn] at h
      cases h

/-- A command that was read is the instruction's encoding, and its list is no longer than a length byte can say. -/
theorem decode_eq_instr {bs rest : List Byte} {i : Instr} (h : decode bs = .instr i rest) :
    ListFits i ∧ ∀ p, bs = encode p i ++ rest := by
  cases bs with
  | nil => cases h
  | cons b bs =>
    obtain ⟨-, e⟩ | ⟨op, rfl, ⟨-, e⟩ | ⟨j, rest', hd, e⟩⟩ := decode_cons_cases b bs <;> rw [h] at e
    · cases e
    · cases e
    · obtain ⟨rfl, rfl⟩ := Decoded.instr.inj e
      exact decodeOperands_eq_some hd

/-! ### The round trips -/

/-- Settles O3: the operands of each operation are read back in their order, the 32-bit ones through `fromLe32_bytes` and the
lists through their length byte. -/
theorem hostDecodeEncode : Obligations.HostDecodeEncode := by
  intro p i rest hw (fits : ListFits i)
  cases i with
  | init | setReg | getReg | strobe | fifoRead | build | send | turnOn | turnOff | setColor | recvPacket | rgbToHsi
  | wrAddr | rdAddr | wrSeq | rdSeq | wrColor | rdColor | wrCtrl | rdCtrl | rdPollLimit | rdFault | rdBustate =>
    exact decode_of_operands _ rfl
  | learn m d =>
    exact decode_of_operands .learn (congrArg (fun d => some (Instr.learn m d, rest)) (fromLe32_bytes d))
  | wrPollLimit l =>
    exact decode_of_operands .wrPollLimit (congrArg (fun l => some (Instr.wrPollLimit l, rest)) (fromLe32_bytes l))
  | fifoWrite l => exact decode_of_operands .fifoWrite (decodeOperands_counted rest (listFits_fifoWrite.1 fits)).1
  | parse l => exact decode_of_operands .parse (decodeOperands_counted rest (listFits_parse.1 fits)).2
  | _ => exact absurd hw (by simp [Instr.isWire])

/-- Settles O4: the decoder reads host operations only, and `decode_eq_instr` gives their bytes. -/
theorem hostEncodeDecode : Obligations.HostEncodeDecode :=
  fun p _ _ _ h => ⟨decode_isWire h, (decode_eq_instr h).2 p⟩

/-! ### Bytes that arrive later, and bytes that are missing -/

/-- Bytes that arrive later do not change a command that was read. -/
theorem decode_append_instr {bs rest : List Byte} {i : Instr} (h : decode bs = .instr i rest) (more : List Byte) :
    decode (bs ++ more) = .instr i (rest ++ more) := by
  obtain ⟨fits, bytes⟩ := decode_eq_instr h
  rw [bytes Profile.reference, List.append_assoc]
  exact hostDecodeEncode _ i _ (decode_isWire h) fits

/-- Bytes that arrive later do not change what an unassigned code is. -/
theorem decode_append_unassigned {bs rest : List Byte} {b : Byte} (h : decode bs = .unassignedCode b rest)
    (more : List Byte) : decode (bs ++ more) = .unassignedCode b (rest ++ more) := by
  cases bs with
  | nil => cases h
  | cons c bs =>
    obtain ⟨hc, e⟩ | ⟨op, -, ⟨-, e⟩ | ⟨_, _, -, e⟩⟩ := decode_cons_cases c bs <;> rw [h] at e
    · obtain ⟨rfl, rfl⟩ := Decoded.unassignedCode.inj e
      exact decode_unassigned _ hc
    · cases e
    · cases e

/-- A command of which bytes are missing is incomplete. -/
theorem decode_of_missing {p : Profile} {i : Instr} {bs missing : List Byte} (hw : i.isWire = false) (fits : ListFits i)
    (hm : missing ≠ []) (h : bs ++ missing = encode p i) : decode bs = .incomplete := by
  have whole : decode (bs ++ missing) = .instr i [] := by
    simpa only [h, List.append_nil] using hostDecodeEncode p i [] hw fits
  cases hd : decode bs with
  | incomplete => rfl
  | unassignedCode b rest =>
    rw [decode_append_unassigned hd] at whole
    cases whole
  | instr j rest =>
    rw [decode_append_instr hd] at whole
    exact absurd (List.append_eq_nil_iff.1 (Decoded.instr.inj whole).2).2 hm

/-- 256 bytes hold the operands of any command: nine at most, or a length byte and the bytes it counts. -/
theorem decodeOperands_isSome (op : HostOp) : ∀ {bs : List Byte}, 256 ≤ bs.length → (decodeOperands op bs).isSome = true
  | n :: _ :: _ :: _ :: _ :: _ :: _ :: _ :: _ :: _, h => by
    cases op with
    | fifoWrite | parse =>
      rw [decodeOperands, if_pos (Nat.le_of_lt_succ (n.isLt.trans_le h))]
      rfl
    | _ => rfl

/-- Where the decoder waits, at most 256 bytes more complete a command: with 256 zeros after the waiting bytes it reads one,
and the encoding of that one ends among the zeros. -/
theorem exists_completion {bs : List Byte} (h : decode bs = .incomplete) :
    ∃ i more, more.length ≤ 256 ∧ i.isWire = false ∧ decode (bs ++ more) = .instr i [] := by
  cases bs with
  | nil => exact ⟨.init, [0x01], by decide, rfl, rfl⟩
  | cons b bs =>
    obtain ⟨-, e⟩ | ⟨op, rfl, -⟩ := decode_cons_cases b bs
    · rw [h] at e
      cases e
    · obtain ⟨⟨i, rest⟩, hd⟩ := Option.isSome_iff_exists.1 (decodeOperands_isSome op (bs := bs ++ zeros 256) (by simp))
      obtain ⟨fits, bytes⟩ := decodeOperands_eq_some hd
      have hw := decodeOperands_isWire hd
      have reads := fun rest => hostDecodeEncode Profile.reference i rest hw fits
      obtain ⟨more, whole, hz⟩ | ⟨left, early, -⟩ :=
        List.append_eq_append_iff.1 (List.cons_append.trans (bytes Profile.reference))
      · refine ⟨i, more, ?_, hw, ?_⟩
        · have := congrArg List.length hz
          simp only [zeros_length, List.length_append] at this
          omega
        · rw [← whole]
          simpa only [List.append_nil] using reads []
      · rw [early, reads left] at h
        cases h

/-- Settles O5: by `decode_append_instr` and `exists_completion`. -/
theorem decodeWaitsOnlyForMissingBytes : Obligations.DecodeWaitsOnlyForMissingBytes :=
  fun _ => ⟨fun _ _ more h => decode_append_instr h more, exists_completion⟩

/-! ### R103's table, and words the spec writes out -/

/-- Settles O1: each line of the table is one equation of `decodeOperands`, and every other code names no operation. -/
theorem hostCommandFormats : Obligations.HostCommandFormats :=
  ⟨fun rest =>
    ⟨decode_of_operands .init rfl, fun _ _ => decode_of_operands .setReg rfl, fun _ => decode_of_operands .getReg rfl,
      fun _ => decode_of_operands .strobe rfl,
      fun _ h => decode_of_operands .fifoWrite (decodeOperands_counted rest h).1,
      decode_of_operands .fifoRead rfl, fun _ _ _ _ _ => decode_of_operands .build rfl,
      fun _ _ _ _ _ => decode_of_operands .send rfl, decode_of_operands .turnOn rfl, decode_of_operands .turnOff rfl,
      fun _ _ _ => decode_of_operands .setColor rfl,
      fun _ _ _ _ _ => ⟨_, toNat_fromLe32 .., decode_of_operands .learn rfl⟩,
      fun _ h => decode_of_operands .parse (decodeOperands_counted rest h).2,
      decode_of_operands .recvPacket rfl, fun _ _ _ => decode_of_operands .rgbToHsi rfl,
      fun _ _ _ _ _ _ _ _ _ => decode_of_operands .wrAddr rfl, decode_of_operands .rdAddr rfl,
      fun _ => decode_of_operands .wrSeq rfl, decode_of_operands .rdSeq rfl,
      fun _ _ _ => decode_of_operands .wrColor rfl, decode_of_operands .rdColor rfl,
      fun _ => decode_of_operands .wrCtrl rfl, decode_of_operands .rdCtrl rfl,
      fun _ _ _ _ => ⟨_, toNat_fromLe32 .., decode_of_operands .wrPollLimit rfl⟩,
      decode_of_operands .rdPollLimit rfl, decode_of_operands .rdFault rfl, decode_of_operands .rdBustate rfl⟩,
    fun _ rest h => ⟨rest, decode_unassigned rest (hostOpOfCode_eq_none h)⟩⟩

/-- Settles O2: both decoders compute on the words. -/
theorem decodeSpecWords : Obligations.DecodeSpecWords :=
  ⟨rfl, rfl, rfl, rfl, rfl, rfl, rfl, rfl, rfl, rfl, rfl, rfl, rfl⟩

end Sys2Proof.Machine
end

section
/-! SUPPORT. The wire transaction codec (spec/30_encoding.md R90 to R94): decoding and encoding are inverse to each other, and each
wire form is one exchange of its bytes. -/

namespace Sys2Proof.Machine

open Sys2Proof.Safety

/-! ### The header byte and the status byte -/

theorem headerRw_eq_read {h : Byte} : headerRw h = .read ↔ h.getLsbD 7 = true := by
  unfold headerRw
  split <;> simp_all

theorem headerMode_eq_burst {h : Byte} : headerMode h = .burst ↔ h.getLsbD 6 = true := by
  unfold headerMode
  split <;> simp_all

/-- A burst header is no strobe's code: those have bits 7:6 = 00 (spec/00_scope.md R8 (2)). -/
theorem opc_burst_toNat (rw : Rw) (a : RegAddr) : 0x40 ≤ (opc rw .burst a).toNat := by
  revert a; cases rw <;> decide +kernel

/-- Settles O8: the formula by the laws of `opc`, the fields by those of the header byte. -/
theorem headerByteFields : Obligations.HeaderByteFields := by
  intro a
  refine ⟨opc_read_single_field a, ?_, opc_read_burst_field a, opc_write_burst_field a, fun rw m => ⟨?_, ?_, ?_⟩⟩
  · exact (opc_write_single_field a).trans BitVec.zero_or.symm
  · rw [← headerRw_eq_read, headerRw_opc]
  · rw [← headerMode_eq_burst, headerMode_opc]
  · exact headerAddr_opc rw m a

theorem chipStateCode_stateOf (sb : Byte) : (chipStateCode (stateOf sb)).toNat = sb.toNat / 16 % 8 := by
  revert sb; decide +kernel

/-- Settles O9: R95's mask of the count is a remainder, and R96's table is checked on every byte. -/
theorem statusByteFields : Obligations.StatusByteFields :=
  ⟨fun sb => ⟨rfl, Nat.and_two_pow_sub_one_eq_mod sb.toNat 4, chipStateCode_stateOf sb⟩,
    rfl, rfl, rfl, rfl, rfl, rfl, rfl, rfl⟩

/-! ### The wire forms -/

/-- Everything a wire form can be: a strobe's form, the status poll or one of the four access forms (R94). -/
theorem wire_cases {i : Instr} (hw : i.isWire = true) :
    (∃ st, i = wireStrobe st) ∨ i = .wireStatusPoll ∨ (∃ a v, i = .wireSingleWrite a v) ∨ (∃ a, i = .wireSingleRead a) ∨
      (∃ a bs, i = .wireBurstWrite a bs) ∨ ∃ a n, i = .wireBurstRead a n := by
  cases i with
  | wireStrobeReset => exact .inl ⟨.reset, rfl⟩
  | wireStrobeFsTxOn => exact .inl ⟨.fsTxOn, rfl⟩
  | wireStrobeXtalOff => exact .inl ⟨.xtalOff, rfl⟩
  | wireStrobeCalibrate => exact .inl ⟨.calibrate, rfl⟩
  | wireStrobeRx => exact .inl ⟨.rx, rfl⟩
  | wireStrobeTx => exact .inl ⟨.tx, rfl⟩
  | wireStrobeIdle => exact .inl ⟨.idle, rfl⟩
  | wireStrobePowerDown => exact .inl ⟨.powerDown, rfl⟩
  | wireStrobeFlushRx => exact .inl ⟨.flushRx, rfl⟩
  | wireStrobeFlushTx => exact .inl ⟨.flushTx, rfl⟩
  | wireStatusPoll | wireSingleWrite | wireSingleRead | wireBurstWrite | wireBurstRead => simp
  | _ => exact absurd hw Bool.false_ne_true

@[simp] theorem wireStrobe_isWire (st : Strobe) : (wireStrobe st).isWire = true := by cases st <;> rfl

@[simp] theorem encode_wireStrobe (p : Profile) (st : Strobe) : encode p (wireStrobe st) = strobeBytes p st := by
  cases st <;> rfl

@[simp] theorem exec_wireStrobe (st : Strobe) (s : State) : exec (wireStrobe st) s = wireStrobeExchange st s := by
  cases st <;> rfl

theorem strobeBytes_of_code {p : Profile} {st : Strobe} {code : Byte} (h : strobeCode p st = some code) :
    strobeBytes p st = [code] := by
  rw [strobeBytes, h]
  rfl

theorem strobeCode_of_strobeOfCode {p : Profile} {st : Strobe} {b : Byte} (h : strobeOfCode p b = some st) :
    strobeCode p st = some b := by
  rw [strobeOfCode] at h
  simpa using List.find?_some h

/-! ### The wire decoder -/

theorem strobeCode_range {p : Profile} (legal : LegalProfile p) {st : Strobe} {code : Byte}
    (h : strobeCode p st = some code) : code.toNat < 0x40 ∧ code ≠ 0x00 :=
  legal.code_range code (List.mem_filterMap.2 ⟨st, mem_allStrobes st, h⟩)

/-- A strobe's code is read as that strobe: in a legal profile it is no status poll, and no other strobe has it. -/
theorem decodeWire_code {p : Profile} (legal : LegalProfile p) {st : Strobe} {code : Byte}
    (h : strobeCode p st = some code) : decodeWire p [code] = some (wireStrobe st) := by
  have notPoll : code ≠ pollByte := (strobeCode_range legal h).2
  simp only [decodeWire, if_neg notPoll, strobeOfCode_strobeCode legal h]

/-- A burst header alone is neither the status poll nor, in a legal profile, a strobe. -/
theorem decodeWire_burstHeader_eq {p : Profile} (legal : LegalProfile p) (rw : Rw) (a : RegAddr) :
    decodeWire p [opc rw .burst a] =
      some (match rw with | .write => .wireBurstWrite a [] | .read => .wireBurstRead a 0) := by
  have large := opc_burst_toNat rw a
  have notPoll : opc rw .burst a ≠ pollByte := fun e => by
    rw [e] at large
    exact absurd large (by decide)
  have notStrobe : strobeOfCode p (opc rw .burst a) = none := by
    by_contra some_st
    obtain ⟨st, hst⟩ := Option.ne_none_iff_exists'.1 some_st
    exact large.not_gt (strobeCode_range legal (strobeCode_of_strobeOfCode hst)).1
  simp only [decodeWire, if_neg notPoll, notStrobe, headerRw_opc, headerMode_opc, headerAddr_opc]
  cases rw <;> rfl

/-- Settles O6: a strobe is told by its code and a burst header alone by its mode bit, both in a legal profile only; a longer
transaction by its header's fields. -/
theorem wireDecodeEncode : Obligations.WireDecodeEncode := by
  intro p i wf hw he
  have legal := profileWf_iff_legalProfile.1 wf
  obtain ⟨st, rfl⟩ | rfl | ⟨a, v, rfl⟩ | ⟨a, rfl⟩ | ⟨a, bs, rfl⟩ | ⟨a, n, rfl⟩ := wire_cases hw
  · rw [encode_wireStrobe] at he ⊢
    cases hc : strobeCode p st with
    | none => exact absurd (by rw [strobeBytes, hc]; rfl) he
    | some code => rw [strobeBytes_of_code hc, decodeWire_code legal hc]
  · rfl
  · simp only [encode, decodeWire, headerRw_opc, headerMode_opc, headerAddr_opc, if_true]
  · simp only [encode, decodeWire, headerRw_opc, headerMode_opc, headerAddr_opc, and_self, if_true]
  · cases bs with
    | nil => exact decodeWire_burstHeader_eq legal .write a
    | cons b bs => simp only [encode, decodeWire, headerRw_opc, headerMode_opc, headerAddr_opc]
  · cases n with
    | zero => exact decodeWire_burstHeader_eq legal .read a
    | succ n =>
      have hz : zeros (n + 1) = 0x00 :: zeros n := rfl
      simp only [encode, hz, decodeWire, headerRw_opc, headerMode_opc, headerAddr_opc, zeros_length, if_true]

/-- A header byte of which the fields are known. -/
theorem opc_of_header {h : Byte} {rw : Rw} {m : AccessMode} (hrw : headerRw h = rw) (hm : headerMode h = m) :
    opc rw m (headerAddr h) = h := by
  rw [← hrw, ← hm, opc_headerFields]

/-- One byte that was read is the status poll, a strobe's code or a burst header. -/
theorem encode_of_decodeWire_one {p : Profile} {h : Byte} {i : Instr} (hd : decodeWire p [h] = some i) :
    i.isWire = true ∧ encode p i = [h] := by
  simp only [decodeWire] at hd
  split at hd
  next poll =>
    cases hd
    exact ⟨rfl, by rw [poll]; rfl⟩
  next =>
    cases hst : strobeOfCode p h with
    | some st =>
      simp only [hst, Option.some.injEq] at hd
      subst hd
      exact ⟨wireStrobe_isWire st, (encode_wireStrobe p st).trans (strobeBytes_of_code (strobeCode_of_strobeOfCode hst))⟩
    | none =>
      cases hrw : headerRw h <;> cases hm : headerMode h <;> simp only [hst, hrw, hm] at hd <;> cases hd
      all_goals exact ⟨rfl, congrArg (fun b => [b]) (opc_of_header hrw hm)⟩

/-- Two bytes or more that were read are an access form: the header first, then a value, a filler, a payload or fillers. -/
theorem encode_of_decodeWire_more {p : Profile} {h b : Byte} {bs : List Byte} {i : Instr}
    (hd : decodeWire p (h :: b :: bs) = some i) : i.isWire = true ∧ encode p i = h :: b :: bs := by
  cases hrw : headerRw h <;> cases hm : headerMode h <;> simp only [decodeWire, hrw, hm] at hd
  case read.single =>
    obtain ⟨⟨rfl, rfl⟩, ⟨⟩⟩ := Option.ite_none_right_eq_some.1 hd
    exact ⟨rfl, by rw [encode, opc_of_header hrw hm]⟩
  case read.burst =>
    obtain ⟨fillers, ⟨⟩⟩ := Option.ite_none_right_eq_some.1 hd
    exact ⟨rfl, by rw [encode, opc_of_header hrw hm, fillers]⟩
  case write.single =>
    obtain ⟨rfl, ⟨⟩⟩ := Option.ite_none_right_eq_some.1 hd
    exact ⟨rfl, by rw [encode, opc_of_header hrw hm]⟩
  case write.burst =>
    cases hd
    exact ⟨rfl, by rw [encode, opc_of_header hrw hm]⟩

/-- Settles O7: one byte and more bytes apart, each by what the decoder asked of them. -/
theorem wireEncodeDecode : Obligations.WireEncodeDecode := by
  intro p bs i hd
  match bs with
  | [] => cases hd
  | [_] => exact encode_of_decodeWire_one hd
  | _ :: _ :: _ => exact encode_of_decodeWire_more hd

/-! ### A wire form is one exchange -/

/-- A wire form that has bytes is one exchange of them. -/
theorem oneExchange_of_encode {i : Instr} {s : State} {tx : List Byte} (hw : i.isWire = true)
    (h : encode s.profile i = tx) (hne : tx ≠ []) : OneExchange i s tx := by
  subst h
  obtain ⟨o, ho, e⟩ := wireExchange_cases (encode s.profile i) s
  exact ⟨_, o, (exec_wire i s hw hne).trans e, ho, rfl, rfl, rfl⟩

theorem oneExchange_strobe {s : State} {code : Byte} (st : Strobe) (h : strobeCode s.profile st = some code) :
    OneExchange (wireStrobe st) s [code] :=
  oneExchange_of_encode (wireStrobe_isWire st) ((encode_wireStrobe _ st).trans (strobeBytes_of_code h))
    (List.cons_ne_nil _ _)

/-- Settles O10: the bytes written out are those of `encode`, by the laws of `opc`. -/
theorem wireFormsAreOneExchange : Obligations.WireFormsAreOneExchange := by
  intro s
  refine ⟨fun a v => ?_, fun a => ?_, fun a bs => ?_, fun a n => ?_, ?_, oneExchange_strobe .reset rfl,
    oneExchange_strobe .fsTxOn rfl, oneExchange_strobe .xtalOff rfl, oneExchange_strobe .calibrate rfl,
    oneExchange_strobe .rx rfl, oneExchange_strobe .tx rfl, oneExchange_strobe .idle rfl,
    oneExchange_strobe .powerDown rfl, fun _ => oneExchange_strobe .flushRx, fun _ => oneExchange_strobe .flushTx⟩
  all_goals refine oneExchange_of_encode rfl ?_ (List.cons_ne_nil _ _)
  · rw [encode, opc_write_single_field]
  · rw [encode, opc_read_single_field]
  · rw [encode, opc_write_burst_field]
  · rw [encode, opc_read_burst_field, zeros]
  · rfl

theorem wireStrobeExchange_of_no_code {st : Strobe} {s : State} (h : strobeCode s.profile st = none) :
    wireStrobeExchange st s = .refused .absentStrobeCode := by
  simp only [wireStrobeExchange, h]

/-- Settles O11: the flush codes are those of the profile. -/
theorem flushFormWithoutCodeRefused : Obligations.FlushFormWithoutCodeRefused :=
  fun _ => ⟨wireStrobeExchange_of_no_code (st := .flushRx), wireStrobeExchange_of_no_code (st := .flushTx)⟩

end Sys2Proof.Machine
end

section
/-! SUPPORT. How a host command reaches the step (spec/30_encoding.md R101, R105, 60_exceptions.md R337). -/

namespace Sys2Proof.Machine

open Sys2Proof.Safety

theorem busy_eq_false {s : State} (h : s.buPhase = .uninit ∨ s.buPhase = .ready ∨ s.buPhase = .failed) :
    s.busy = false := by
  rcases h with h | h | h <;> rw [State.busy, h] <;> rfl

/-- A step that meets an unassigned operation code. -/
theorem step_unassigned {s : State} {b : Byte} {rest : List Byte} (hp : profileWf s.profile = true)
    (hr : s.resetIn = false) (hb : s.busy = false) (hd : decode s.hostIn = .unassignedCode b rest) :
    step s = .next (illegalCommand (s.setHostIn rest)) := by
  simp [step, legalStep, runCommand, hp, hr, hb, hd]

/-- Settles O50: it is `step_instr` in the three idle phases. -/
theorem stepRunsDecodedCommand : Obligations.StepRunsDecodedCommand :=
  fun _ _ _ hp hr idle hd => step_instr hp hr (busy_eq_false idle) hd

/-- Settles O51: a code outside R103's table is decoded as unassigned, with the bytes after it. -/
theorem stepAnswersUnassignedCode : Obligations.StepAnswersUnassignedCode := by
  intro s b rest hp hr idle hin hb
  have hd : decode s.hostIn = .unassignedCode b rest := by
    rw [hin, decode_unassigned rest (hostOpOfCode_eq_none hb)]
  exact step_unassigned hp hr (busy_eq_false idle) hd

/-- Settles O52: the part of a command is decoded as incomplete, and the two stops of a waiting block are told apart by
whether it holds a byte. -/
theorem stepWaitsForMissingBytes : Obligations.StepWaitsForMissingBytes := by
  intro s
  refine ⟨fun hp hr idle => ⟨fun i missing hw fits hm hin whole => ?_, fun hin => ?_⟩, no_step_of_awaitsHost⟩
  · exact (step_incomplete hp hr (busy_eq_false idle) (decode_of_missing hw fits hm whole)).trans (if_neg hin)
  · have hd : decode s.hostIn = .incomplete := by rw [hin]; rfl
    exact (step_incomplete hp hr (busy_eq_false idle) hd).trans (if_pos hin)

end Sys2Proof.Machine
end

section
/-! SUPPORT. The register access operations (spec/40_register_access.md R134 to R138): each is its exchanges, its events and one
response, and no register moves. -/

namespace Sys2Proof.Machine

open Sys2Proof.Safety

/-! ### Results of one exchange -/

@[simp] theorem resultByte_transferResult (o : XferOutcome) : resultByte (transferResult o) = transferCode o := by
  cases o <;> rfl

/-! ### Addresses out of range (R132) -/

theorem exec_setReg_of_addrRefused (v : Byte) (s : State) {a : Byte} (ha : 0x40 ≤ a.toNat) :
    exec (.setReg a v) s = .next (s.respond .addressOutOfRange []) := by
  rw [exec, execSetReg, setReg, if_pos ((addrRefused_iff a).2 ha)]
  rfl

theorem exec_getReg_of_addrRefused (s : State) {a : Byte} (ha : 0x40 ≤ a.toNat) :
    exec (.getReg a) s = .next (s.respond .addressOutOfRange []) := by
  rw [exec, execGetReg, getReg, if_pos ((addrRefused_iff a).2 ha)]
  rfl

/-! ### Selectors -/

/-- The selector numbers the strobes in their order (R108). -/
theorem strobeOfSelector_eq_getElem? (sel : Byte) : strobeOfSelector sel = allStrobes[sel.toNat]? := by
  revert sel
  decide +kernel

/-- A selector has the code that stands at its number in the list of the strobes' codes, where the profile has one there. -/
theorem selectorCode_eq_some {p : Profile} {sel code : Byte} :
    selectorCode p sel = some code ↔ (allStrobes.map (strobeCode p))[sel.toNat]? = some (some code) := by
  rw [selectorCode, strobeOfSelector_eq_getElem?, List.getElem?_map]
  cases allStrobes[sel.toNat]? <;> simp

/-- Everything STROBE does with a selector that has a code: one exchange of it and its result. -/
theorem exec_strobe_cases {s : State} {sel code : Byte} (hc : selectorCode s.profile sel = some code) :
    ∃ o, AnswerAt s 0 1 o ∧ exec (.strobe sel) s =
      .next ((s.afterEvents [.xfer (frameStrobe code) o] s.oracle.nextXfer).respond (transferResult o) []) := by
  obtain ⟨o, ho, e⟩ := xfer_cases (frameStrobe code) s
  refine ⟨o, ho, ?_⟩
  rw [exec, execStrobe, strobe, hc]
  simp only [e]
  cases o <;> rfl

theorem exec_strobe_of_no_code {s : State} {sel : Byte} (hc : selectorCode s.profile sel = none) :
    exec (.strobe sel) s = .next (s.respond .illegalCommand []) := by
  rw [exec, execStrobe, strobe, hc]
  rfl

/-! ### SET_REG, GET_REG and STROBE -/

/-- Settles O13: out of range nothing but the response, in range the one exchange of `exec_setReg_cases`, whose header byte is
the address itself. -/
theorem setRegWritesOneRegister : Obligations.SetRegWritesOneRegister := by
  refine fun s a v rest => ⟨decode_of_operands .setReg rfl, exec_setReg_of_addrRefused v s, fun ha => ?_⟩
  obtain ⟨o, ho, e⟩ := exec_setReg_cases v s ha
  rw [frameSingleWrite, opc_write_single a ha] at e
  exact ⟨_, o, e, ho, rfl, by simp [State.respond], rfl⟩

/-- Settles O14: as for SET_REG; the answer to a read is a failure or two bytes, and the second one is returned. -/
theorem getRegReturnsSecondByte : Obligations.GetRegReturnsSecondByte := by
  refine fun s a rest => ⟨decode_of_operands .getReg rfl, exec_getReg_of_addrRefused s, fun ha => ?_⟩
  obtain ⟨o, ho, e⟩ := exec_getReg_cases s ha
  rw [frameSingleRead, opc_read_single a ha] at e
  refine ⟨_, o, e, ho, rfl, rfl, ?_⟩
  cases o with
  | fail => exact .inl ⟨rfl, rfl⟩
  | ok rx =>
    obtain ⟨echo, v, rfl⟩ := List.length_eq_two.1 ho.1
    exact .inr ⟨echo, v, rfl, rfl⟩

/-- Settles O15: the list of codes is that of all strobes, so `selectorCode_eq_some` tells the selectors that have a code from
the others. -/
theorem strobeSendsItsCode : Obligations.StrobeSendsItsCode := by
  refine fun s sel rest => ⟨decode_of_operands .strobe rfl, fun code hcode => ?_, fun hnone => ?_⟩
  · obtain ⟨o, ho, e⟩ := exec_strobe_cases (selectorCode_eq_some.2 hcode)
    exact ⟨_, o, e, ho, rfl, by simp [State.respond], rfl⟩
  · exact exec_strobe_of_no_code (Option.eq_none_iff_forall_ne_some.2 fun code hcode =>
      hnone code (selectorCode_eq_some.1 hcode))

/-! ### FIFO_WRITE and FIFO_READ -/

/-- Settles O16: `fifoWrite_cases` gives the run, and the reply is its result code alone. -/
theorem fifoWriteThenStrobe : Obligations.FifoWriteThenStrobe := by
  refine fun s p rest => ⟨fun hp => decode_of_operands .fifoWrite (decodeOperands_counted rest hp).1, ?_⟩
  obtain ⟨r, evs, o, run, -, e⟩ := fifoWrite_cases p s
  refine ⟨_, resultByte r, evs, rfl, run, ?_⟩
  rw [e]
  exact ⟨rfl, rfl, rfl⟩

/-- Settles O17: `fifoRead_cases` gives the run, and that the count byte of a payload is its length. -/
theorem fifoReadReturnsCountedBytes : Obligations.FifoReadReturnsCountedBytes := by
  refine fun s rest => ⟨decode_of_operands .fifoRead rfl, ?_⟩
  obtain ⟨r, evs, o, run, count, e⟩ := fifoRead_cases s
  refine ⟨_, fifoReadResult r, evs, rfl, run, ?_⟩
  rw [e]
  cases r with
  | error code => exact ⟨rfl, rfl, rfl⟩
  | ok reply =>
    obtain ⟨c, payload⟩ := reply
    obtain ⟨rfl, -⟩ := count c payload rfl
    exact ⟨rfl, rfl, rfl⟩

end Sys2Proof.Machine
end

section
/-! SUPPORT. One exchange of a running INIT (spec/41_bringup.md R172 to R177, R179): which bytes are due in a phase, and
everything their answer can lead to. -/

namespace Sys2Proof.Machine

open Sys2Proof.Safety

/-! ### The exchange -/

/-- An exchange logs its own answer, and the exchange tape moves on. -/
theorem xfer_eq_exchanged (tx : List Byte) (s : State) :
    AnswerAt s 0 tx.length (xfer tx s).1 ∧ xfer tx s = ((xfer tx s).1, s.exchanged tx (xfer tx s).1) := by
  obtain ⟨o, ho, e⟩ := xfer_cases tx s
  rw [e]
  exact ⟨ho, rfl⟩

/-- The bytes of the exchange that is due in the state of a running INIT, phase by phase. -/
inductive Due (s : State) : List Byte → Prop where
  | reset (hp : s.buPhase = .reset) : Due s [s.profile.strobes.reset]
  | readyPoll (hp : s.buPhase = .readyPoll) : Due s [0x00]
  | idPoll (hp : s.buPhase = .idPoll) : Due s [0xC0 ||| s.profile.idRegAddr.setWidth 8, 0x00]
  | config (hp : s.buPhase = .config) (e : RegAddr × Byte) (he : s.profile.configTable[s.cfgIdx]? = some e) :
      Due s [e.1.setWidth 8, e.2]
  | settle (hp : s.buPhase = .settle) (code : Byte) (hc : (settleCodes s.profile)[s.settleIdx]? = some code) :
      Due s [code]

/-- The settle strobes' wire forms are, in order, those of the settle codes. -/
theorem encode_settleForms (p : Profile) :
    [Instr.wireStrobeIdle, .wireStrobeIdle, .wireStrobePowerDown, .wireStrobeIdle].map (encode p) =
      (settleCodes p).map frameStrobe := rfl

theorem due_of_bringUpForm {s : State} {i : Instr} (h : bringUpForm s = some i) : Due s (encode s.profile i) := by
  cases hp : s.buPhase <;> simp only [bringUpForm, hp, reduceCtorEq] at h
  case reset =>
    obtain rfl := Option.some.inj h
    exact .reset hp
  case readyPoll =>
    obtain rfl := Option.some.inj h
    exact .readyPoll hp
  case idPoll =>
    obtain rfl := Option.some.inj h
    rw [encode, opc_read_burst_field]
    exact .idPoll hp
  case config =>
    obtain ⟨e, he, rfl⟩ := Option.map_eq_some_iff.1 h
    rw [encode, opc_write_single_field]
    exact .config hp e he
  case settle =>
    have hf := congrArg (·[s.settleIdx]?) (encode_settleForms s.profile)
    simp only [List.getElem?_map, h, Option.map_some] at hf
    obtain ⟨code, hc, hcode⟩ := Option.map_eq_some_iff.1 hf.symm
    rw [← hcode]
    exact .settle hp code hc

theorem Due.busy {s : State} {tx : List Byte} (due : Due s tx) : s.busy = true := by
  cases due <;> rw [State.busy, ‹s.buPhase = _›] <;> rfl

/-- A running INIT makes the exchange that is due and goes on with its answer. -/
theorem bringUpStep_of_due {s : State} {tx : List Byte} {o : XferOutcome} (due : Due s tx)
    (e : xfer tx s = (o, s.exchanged tx o)) : bringUpStep s = bringUpNext (s.exchanged tx o) o := by
  cases due with
  | reset hp =>
    simp only [bringUpStep, hp, phaseReset, frameStrobe, e]
    cases o <;> simp only [bringUpNext, State.exchanged, State.afterEvents_buPhase, hp]
  | readyPoll hp =>
    simp only [bringUpStep, hp, phaseReadyPoll, poll, framePoll, pollByte, e]
    cases o <;> simp only [bringUpNext, State.exchanged, State.afterEvents_buPhase, hp]
  | idPoll hp =>
    rw [show [0xC0 ||| s.profile.idRegAddr.setWidth 8, 0x00] = frameBurstRead s.profile.idRegAddr 1 from
      (frameBurstRead_eq _ 1).symm] at e ⊢
    simp only [bringUpStep, hp, phaseIdPoll, statusRead, e]
    cases o <;> simp only [bringUpNext, State.exchanged, State.afterEvents_buPhase, hp]
  | config hp entry he =>
    rw [← opc_write_single_field] at e ⊢
    simp only [bringUpStep, hp, phaseConfig, he, frameSingleWrite, e]
    cases o <;> simp only [bringUpNext, State.exchanged, State.afterEvents_buPhase, hp]
  | settle hp code hc =>
    simp only [bringUpStep, hp, phaseSettle, hc, frameStrobe, e]
    cases o <;> simp only [bringUpNext, State.exchanged, State.afterEvents_buPhase, hp]

/-! ### What an answer leads to, phase by phase -/

section Answered

variable {s : State} (rx : List Byte)

theorem bringUpNext_reset (hp : s.buPhase = .reset) : bringUpNext s (.ok rx) = startPoll .readyPoll s := by
  simp only [bringUpNext, hp]

/-- Not ready: both polls count on, up to the bound (R173, R174). -/
theorem bringUpNext_notReady (hp : s.buPhase = .readyPoll ∨ s.buPhase = .idPoll)
    (hr : statusNotReady (rxByte rx 0) = true) :
    bringUpNext s (.ok rx) = pollAgain (s.setPollCnt (s.pollCnt + 1)) := by
  rcases hp with hp | hp <;> simp only [bringUpNext, hp, hr, if_true]

theorem bringUpNext_readyPoll (hp : s.buPhase = .readyPoll) (hr : statusNotReady (rxByte rx 0) = false) :
    bringUpNext s (.ok rx) = startPoll .idPoll (s.setPollCnt (s.pollCnt + 1)) := by
  simp only [bringUpNext, hp, hr, Bool.false_eq_true, if_false]

theorem bringUpNext_idPoll (hp : s.buPhase = .idPoll) (hr : statusNotReady (rxByte rx 0) = false) :
    bringUpNext s (.ok rx) = identityCheck (rxByte rx 1) (s.setPollCnt (s.pollCnt + 1)) := by
  simp only [bringUpNext, hp, hr, Bool.false_eq_true, if_false]

theorem bringUpNext_config (hp : s.buPhase = .config) : bringUpNext s (.ok rx) = nextEntry s := by
  simp only [bringUpNext, hp]

theorem bringUpNext_settle (hp : s.buPhase = .settle) : bringUpNext s (.ok rx) = nextSettle s := by
  simp only [bringUpNext, hp]

end Answered

theorem pollAgain_of_limit {s : State} (h : pollLimitReached s = true) : pollAgain s = failInit .timeout [] s := if_pos h

theorem pollAgain_of_below {s : State} (h : pollLimitReached s = false) : pollAgain s = s := by
  rw [pollAgain, h]
  rfl

/-- Everything one exchange of a running INIT can be: from s, the bytes sent, their answer, and the state after it. -/
inductive InitTurn (s : State) : List Byte → XferOutcome → State → Prop where
  /-- The exchange failed, the identity is another, or the bound is reached: INIT ends with an error. -/
  | fails {tx : List Byte} {o : XferOutcome} (due : Due s tx) (code : ResultCode) (data : List Byte) (n : Nat)
      (hc : code ≠ .ok) : InitTurn s tx o (failInit code data ((s.exchanged tx o).setPollCnt n))
  | reset (rx : List Byte) (hp : s.buPhase = .reset) :
      InitTurn s [s.profile.strobes.reset] (.ok rx)
        (startPoll .readyPoll (s.exchanged [s.profile.strobes.reset] (.ok rx)))
  | pollNotReady (rx : List Byte) (hp : s.buPhase = .readyPoll) :
      InitTurn s [0x00] (.ok rx) ((s.exchanged [0x00] (.ok rx)).setPollCnt (s.pollCnt + 1))
  | pollReady (rx : List Byte) (hp : s.buPhase = .readyPoll) :
      InitTurn s [0x00] (.ok rx) (startPoll .idPoll (s.exchanged [0x00] (.ok rx)))
  | readNotReady (rx : List Byte) (hp : s.buPhase = .idPoll) :
      InitTurn s [0xC0 ||| s.profile.idRegAddr.setWidth 8, 0x00] (.ok rx)
        ((s.exchanged [0xC0 ||| s.profile.idRegAddr.setWidth 8, 0x00] (.ok rx)).setPollCnt (s.pollCnt + 1))
  | identified (rx : List Byte) (hp : s.buPhase = .idPoll) (hr : (rxByte rx 0).getLsbD 7 = false)
      (hv : rxByte rx 1 = 0x80) :
      InitTurn s [0xC0 ||| s.profile.idRegAddr.setWidth 8, 0x00] (.ok rx)
        (startConfig ((s.exchanged [0xC0 ||| s.profile.idRegAddr.setWidth 8, 0x00] (.ok rx)).setPollCnt (s.pollCnt + 1)))
  | entry (rx : List Byte) (hp : s.buPhase = .config) (e : RegAddr × Byte)
      (he : s.profile.configTable[s.cfgIdx]? = some e) :
      InitTurn s [e.1.setWidth 8, e.2] (.ok rx)
        ((s.exchanged [e.1.setWidth 8, e.2] (.ok rx)).setCfgIdx (s.cfgIdx + 1))
  | lastEntry (rx : List Byte) (hp : s.buPhase = .config) (e : RegAddr × Byte)
      (he : s.profile.configTable[s.cfgIdx]? = some e) (hl : s.profile.configTable.length = s.cfgIdx + 1) :
      InitTurn s [e.1.setWidth 8, e.2] (.ok rx)
        (startSettle ((s.exchanged [e.1.setWidth 8, e.2] (.ok rx)).setCfgIdx (s.cfgIdx + 1)))
  | settle (rx : List Byte) (hp : s.buPhase = .settle) (code : Byte)
      (hc : (settleCodes s.profile)[s.settleIdx]? = some code) :
      InitTurn s [code] (.ok rx) ((s.exchanged [code] (.ok rx)).setSettleIdx (s.settleIdx + 1))
  | lastSettle (rx : List Byte) (hp : s.buPhase = .settle) (code : Byte)
      (hc : (settleCodes s.profile)[s.settleIdx]? = some code) (hl : (settleCodes s.profile).length = s.settleIdx + 1) :
      InitTurn s [code] (.ok rx) (completeInit ((s.exchanged [code] (.ok rx)).setSettleIdx (s.settleIdx + 1)))

theorem initTurn_bringUpNext {s : State} {tx : List Byte} (due : Due s tx) (o : XferOutcome) :
    InitTurn s tx o (bringUpNext (s.exchanged tx o) o) := by
  cases o with
  | fail => exact .fails due .transferFail [] s.pollCnt nofun
  | ok rx =>
    have fails := fun code data hc => InitTurn.fails (o := .ok rx) due code data (s.pollCnt + 1) hc
    have timeout := fails .timeout [] nofun
    cases due with
    | reset hp =>
      rw [bringUpNext_reset (s := s.exchanged _ _) rx hp]
      exact .reset rx hp
    | readyPoll hp =>
      cases hr : statusNotReady (rxByte rx 0) with
      | false =>
        rw [bringUpNext_readyPoll (s := s.exchanged _ _) rx hp hr]
        exact .pollReady rx hp
      | true =>
        rw [bringUpNext_notReady (s := s.exchanged _ _) rx (.inl hp) hr, pollAgain]
        split
        · exact timeout
        · exact .pollNotReady rx hp
    | idPoll hp =>
      cases hr : statusNotReady (rxByte rx 0) with
      | false =>
        rw [bringUpNext_idPoll (s := s.exchanged _ _) rx hp hr, identityCheck]
        split
        · exact .identified rx hp hr ‹_›
        · exact fails .deviceMismatch _ nofun
      | true =>
        rw [bringUpNext_notReady (s := s.exchanged _ _) rx (.inr hp) hr, pollAgain]
        split
        · exact timeout
        · exact .readNotReady rx hp
    | config hp e he =>
      rw [bringUpNext_config (s := s.exchanged _ _) rx hp, nextEntry]
      split
      · exact .entry rx hp e he
      · rename_i hl
        obtain ⟨hlt, -⟩ := List.getElem?_eq_some_iff.1 he
        exact .lastEntry rx hp e he (Nat.le_antisymm (Nat.le_of_not_lt hl) hlt)
    | settle hp code hc =>
      rw [bringUpNext_settle (s := s.exchanged _ _) rx hp, nextSettle]
      split
      · exact .settle rx hp code hc
      · rename_i hl
        obtain ⟨hlt, -⟩ := List.getElem?_eq_some_iff.1 hc
        exact .lastSettle rx hp code hc (Nat.le_antisymm (Nat.le_of_not_lt hl) hlt)

/-- A step of a running INIT with a wire form due is a turn of that form's exchange, whatever it is answered. -/
theorem bringUpStep_turn {s : State} {i : Instr} (h : bringUpForm s = some i) :
    InitTurn s (encode s.profile i) (xfer (encode s.profile i) s).1 (bringUpStep s) := by
  have due := due_of_bringUpForm h
  rw [bringUpStep_of_due due (xfer_eq_exchanged _ s).2]
  exact initTurn_bringUpNext due _

section Turn

variable {s t : State} {tx : List Byte} {o : XferOutcome} (turn : InitTurn s tx o t)
include turn

theorem InitTurn.due : Due s tx := by
  cases turn with
  | fails due => exact due
  | reset _ hp => exact .reset hp
  | pollNotReady _ hp | pollReady _ hp => exact .readyPoll hp
  | readNotReady _ hp | identified _ hp => exact .idPoll hp
  | entry _ hp e he | lastEntry _ hp e he => exact .config hp e he
  | settle _ hp code hc | lastSettle _ hp code hc => exact .settle hp code hc

theorem InitTurn.trace : t.trace = s.trace ++ [.xfer tx o] := by cases turn <;> rfl

theorem InitTurn.oracle : t.oracle = s.oracle.nextXfer := by cases turn <;> rfl

end Turn

end Sys2Proof.Machine
end

section
/-! SUPPORT. The order of bring-up (spec/41_bringup.md R170 to R180): TRACE ends with the transactions of the INIT that runs,
and it ends with all of them when INIT answers OK. -/

namespace Sys2Proof.Machine

open Sys2Proof.Safety

/-! ### Where an INIT stands in TRACE -/

/-- The events of these transactions with these answers. -/
def answeredEvents (frames rxs : List (List Byte)) : List Event :=
  List.zipWith (fun tx rx => Event.xfer tx (.ok rx)) frames rxs

theorem answeredEvents_append {fs rs : List (List Byte)} (h : fs.length = rs.length) (fs' rs' : List (List Byte)) :
    answeredEvents (fs ++ fs') (rs ++ rs') = answeredEvents fs rs ++ answeredEvents fs' rs' :=
  List.zipWith_append h

/-- From phase CONFIG on, the last of n1 + 1 polls and n2 + 1 reads was answered ready with the expected identity (R175). -/
def IdentityRead (s : State) (n1 n2 : Nat) (rxs : List (List Byte)) : Prop :=
  s.buPhase = .config ∨ s.buPhase = .settle ∨ s.buPhase = .ready →
    ∃ sb : Byte, rxs[n1 + n2 + 2]? = some [sb, 0x80] ∧ sb.getLsbD 7 = false

/-- `EndsWithBringUp` with its choices named: the events before this INIT, the not-ready answers of its two loops, and the
answers to its transactions. -/
structure StandsAt (s : State) (before : List Event) (n1 n2 : Nat) (rxs : List (List Byte)) : Prop where
  length : rxs.length = (bringUpFrames s n1 n2).length
  trace : s.trace = before ++ .xinit .ok :: answeredEvents (bringUpFrames s n1 n2) rxs
  identity : IdentityRead s n1 n2 rxs

theorem endsWithBringUp_iff {s : State} : EndsWithBringUp s ↔ ∃ before n1 n2 rxs, StandsAt s before n1 n2 rxs :=
  ⟨fun ⟨before, n1, n2, rxs, hl, ht, hi⟩ => ⟨before, n1, n2, rxs, hl, ht, hi⟩,
    fun ⟨before, n1, n2, rxs, hl, ht, hi⟩ => ⟨before, n1, n2, rxs, hl, ht, hi⟩⟩

theorem StandsAt.endsWithBringUp {s : State} {before : List Event} {n1 n2 : Nat} {rxs : List (List Byte)}
    (h : StandsAt s before n1 n2 rxs) : EndsWithBringUp s := endsWithBringUp_iff.2 ⟨before, n1, n2, rxs, h⟩

section StandsAt

variable {s t : State} {before : List Event} {n1 n2 m1 m2 : Nat} {rxs : List (List Byte)}
  (h : StandsAt s before n1 n2 rxs)
include h

/-- One more answered exchange. -/
theorem StandsAt.append {tx rx : List Byte} (ht : t.trace = s.trace ++ [.xfer tx (.ok rx)])
    (hf : bringUpFrames t m1 m2 = bringUpFrames s n1 n2 ++ [tx]) (hi : IdentityRead t m1 m2 (rxs ++ [rx])) :
    EndsWithBringUp t := by
  refine StandsAt.endsWithBringUp (before := before) (rxs := rxs ++ [rx]) ⟨?_, ?_, hi⟩
  · simp [hf, h.length]
  · rw [ht, h.trace, hf, answeredEvents_append h.length.symm]
    simp [answeredEvents]

/-- A step without an exchange. -/
theorem StandsAt.sameTrace (ht : t.trace = s.trace) (hf : bringUpFrames t n1 n2 = bringUpFrames s n1 n2)
    (hi : IdentityRead t n1 n2 rxs) : EndsWithBringUp t :=
  StandsAt.endsWithBringUp ⟨hf ▸ h.length, by rw [ht, hf, h.trace], hi⟩

/-- The identity read of phase CONFIG or SETTLE stays where it is. -/
theorem StandsAt.identity_append (hp : s.buPhase = .config ∨ s.buPhase = .settle) (more : List (List Byte)) :
    IdentityRead t n1 n2 (rxs ++ more) := by
  obtain ⟨sb, hsb, hr⟩ := h.identity (hp.imp_right .inl)
  obtain ⟨hlt, -⟩ := List.getElem?_eq_some_iff.1 hsb
  exact fun _ => ⟨sb, (List.getElem?_append_left hlt).trans hsb, hr⟩

end StandsAt

/-- While a poll goes on, no identity read is asked for. -/
theorem identityRead_of_polling {s : State} (n1 n2 : Nat) (rxs : List (List Byte))
    (hp : s.buPhase = .readyPoll ∨ s.buPhase = .idPoll) : IdentityRead s n1 n2 rxs := by
  rcases hp with hp | hp <;> simp [IdentityRead, hp]

/-! ### The transactions up to a state, phase by phase -/

/-- RESET and n ready polls. -/
def pollFrames (p : Profile) (n : Nat) : List (List Byte) := [[p.strobes.reset]] ++ List.replicate n [0x00]

/-- RESET, n1 + 1 ready polls and n identity reads. -/
def readFrames (p : Profile) (n1 n : Nat) : List (List Byte) :=
  pollFrames p (n1 + 1) ++ List.replicate n [0xC0 ||| p.idRegAddr.setWidth 8, 0x00]

/-- The first n configuration writes. -/
def writeFrames (p : Profile) (n : Nat) : List (List Byte) :=
  (p.configTable.take n).map fun e => [e.1.setWidth 8, e.2]

/-- The first n settle strobes. -/
def settleFrames (p : Profile) (n : Nat) : List (List Byte) := ((settleCodes p).take n).map fun b => [b]

theorem pollFrames_succ (p : Profile) (n : Nat) : pollFrames p (n + 1) = pollFrames p n ++ [[0x00]] := by
  rw [pollFrames, pollFrames, List.replicate_succ', List.append_assoc]

theorem readFrames_succ (p : Profile) (n1 n : Nat) :
    readFrames p n1 (n + 1) = readFrames p n1 n ++ [[0xC0 ||| p.idRegAddr.setWidth 8, 0x00]] := by
  rw [readFrames, readFrames, List.replicate_succ', List.append_assoc]

theorem writeFrames_succ {p : Profile} {n : Nat} {e : RegAddr × Byte} (he : p.configTable[n]? = some e) :
    writeFrames p (n + 1) = writeFrames p n ++ [[e.1.setWidth 8, e.2]] := by
  simp [writeFrames, List.take_add_one, he]

theorem settleFrames_succ {p : Profile} {n : Nat} {code : Byte} (hc : (settleCodes p)[n]? = some code) :
    settleFrames p (n + 1) = settleFrames p n ++ [[code]] := by
  simp [settleFrames, List.take_add_one, hc]

section Frames

variable {s : State} (n1 n2 : Nat)

theorem bringUpFrames_reset (hp : s.buPhase = .reset) : bringUpFrames s n1 n2 = [] := by
  simp only [bringUpFrames, hp]

theorem bringUpFrames_readyPoll (hp : s.buPhase = .readyPoll) :
    bringUpFrames s n1 n2 = pollFrames s.profile s.pollCnt := by
  simp only [bringUpFrames, hp, pollFrames]

theorem bringUpFrames_idPoll (hp : s.buPhase = .idPoll) :
    bringUpFrames s n1 n2 = readFrames s.profile n1 s.pollCnt := by
  simp only [bringUpFrames, hp, readFrames, pollFrames]

theorem bringUpFrames_config (hp : s.buPhase = .config) :
    bringUpFrames s n1 n2 = readFrames s.profile n1 (n2 + 1) ++ writeFrames s.profile s.cfgIdx := by
  simp only [bringUpFrames, hp, readFrames, pollFrames, writeFrames]

theorem bringUpFrames_settle (hp : s.buPhase = .settle) :
    bringUpFrames s n1 n2 = readFrames s.profile n1 (n2 + 1) ++ writeFrames s.profile 33 ++
      settleFrames s.profile s.settleIdx := by
  simp only [bringUpFrames, hp, readFrames, pollFrames, writeFrames, settleFrames, settleCodes]

theorem bringUpFrames_ready (hp : s.buPhase = .ready) :
    bringUpFrames s n1 n2 = readFrames s.profile n1 (n2 + 1) ++ writeFrames s.profile 33 ++ settleFrames s.profile 4 := by
  simp only [bringUpFrames, hp, readFrames, pollFrames, writeFrames, settleFrames, settleCodes]

end Frames

theorem readFrames_length (p : Profile) (n1 n : Nat) : (readFrames p n1 n).length = n1 + n + 2 := by
  simp [readFrames, pollFrames]
  omega

/-- All entries of a table of 33 are written. -/
theorem writeFrames_of_le {p : Profile} {n : Nat} (hl : p.configTable.length = 33) (hn : 33 ≤ n) :
    writeFrames p n = writeFrames p 33 := by
  rw [writeFrames, writeFrames, List.take_of_length_le (hl ▸ hn), List.take_of_length_le hl.le]

theorem settleFrames_of_le (p : Profile) {n : Nat} (hn : 4 ≤ n) : settleFrames p n = settleFrames p 4 := by
  rw [settleFrames, settleFrames, List.take_of_length_le (show (settleCodes p).length ≤ n from hn),
    List.take_of_length_le (show (settleCodes p).length ≤ 4 from le_rfl)]

/-! ### A step of a running INIT keeps the order -/

/-- Two received bytes, as their places name them. -/
theorem eq_rxBytes {rx : List Byte} (h : rx.length = 2) : rx = [rxByte rx 0, rxByte rx 1] := by
  obtain ⟨a, b, rfl⟩ := List.length_eq_two.1 h
  rfl

/-- A turn that does not fail adds its exchange to the order. -/
theorem InitTurn.endsWithBringUp {s t : State} {tx : List Byte} {o : XferOutcome} (turn : InitTurn s tx o t)
    (hl : s.profile.configTable.length = 33) (ho : AnswersBytes tx.length o) (h : EndsWithBringUp s) :
    t.buPhase = .failed ∨ EndsWithBringUp t := by
  obtain ⟨before, n1, n2, rxs, h⟩ := endsWithBringUp_iff.1 h
  cases turn with
  | fails => exact .inl rfl
  | reset rx hp =>
    refine .inr (h.append (m1 := n1) (m2 := n2) rfl ?_ (identityRead_of_polling _ _ _ (.inl rfl)))
    rw [bringUpFrames_reset n1 n2 hp]
    exact bringUpFrames_readyPoll n1 n2 rfl
  | pollNotReady rx hp =>
    refine .inr (h.append (m1 := n1) (m2 := n2) rfl ?_ (identityRead_of_polling _ _ _ (.inl hp)))
    rw [bringUpFrames_readyPoll n1 n2 hp, ← pollFrames_succ]
    exact bringUpFrames_readyPoll n1 n2 hp
  | pollReady rx hp =>
    refine .inr (h.append (m1 := s.pollCnt) (m2 := n2) rfl ?_ (identityRead_of_polling _ _ _ (.inr rfl)))
    rw [bringUpFrames_readyPoll n1 n2 hp, ← pollFrames_succ]
    exact (bringUpFrames_idPoll s.pollCnt n2 rfl).trans (List.append_nil _)
  | readNotReady rx hp =>
    refine .inr (h.append (m1 := n1) (m2 := n2) rfl ?_ (identityRead_of_polling _ _ _ (.inr hp)))
    rw [bringUpFrames_idPoll n1 n2 hp, ← readFrames_succ]
    exact bringUpFrames_idPoll n1 n2 hp
  | identified rx hp hr hv =>
    refine .inr (h.append (m1 := n1) (m2 := s.pollCnt) rfl ?_ fun _ => ⟨rxByte rx 0, ?_, hr⟩)
    · rw [bringUpFrames_idPoll n1 n2 hp, ← readFrames_succ]
      exact (bringUpFrames_config n1 s.pollCnt rfl).trans (List.append_nil _)
    · have hrx : rxs.length = n1 + s.pollCnt + 2 := by
        rw [h.length, bringUpFrames_idPoll n1 n2 hp, readFrames_length]
      rw [← hrx, List.getElem?_concat_length, ← hv, ← eq_rxBytes ho]
  | entry rx hp e he =>
    refine .inr (h.append (m1 := n1) (m2 := n2) rfl ?_ fun _ => h.identity_append (.inl hp) [rx] (.inl hp))
    rw [bringUpFrames_config n1 n2 hp, List.append_assoc, ← writeFrames_succ he]
    exact bringUpFrames_config n1 n2 hp
  | lastEntry rx hp e he hlast =>
    refine .inr (h.append (m1 := n1) (m2 := n2) rfl ?_ fun _ => h.identity_append (.inl hp) [rx] (.inl hp))
    rw [bringUpFrames_config n1 n2 hp, List.append_assoc, ← writeFrames_succ he, ← hlast, hl]
    exact (bringUpFrames_settle n1 n2 rfl).trans (List.append_nil _)
  | settle rx hp code hc =>
    refine .inr (h.append (m1 := n1) (m2 := n2) rfl ?_ fun _ => h.identity_append (.inr hp) [rx] (.inr (.inl hp)))
    rw [bringUpFrames_settle n1 n2 hp, List.append_assoc, ← settleFrames_succ hc]
    exact bringUpFrames_settle n1 n2 hp
  | lastSettle rx hp code hc hlast =>
    refine .inr (h.append (m1 := n1) (m2 := n2) rfl ?_ fun _ => h.identity_append (.inr hp) [rx] (.inr (.inl hp)))
    rw [bringUpFrames_settle n1 n2 hp, List.append_assoc, ← settleFrames_succ hc, ← hlast]
    exact bringUpFrames_ready n1 n2 rfl

/-- A successful XInit begins the order anew (R171). -/
theorem phaseXportInit_endsWithBringUp (s : State) :
    (phaseXportInit s).buPhase = .failed ∨ EndsWithBringUp (phaseXportInit s) := by
  obtain ⟨o, -, e⟩ := xinit_cases s
  unfold phaseXportInit
  rw [e]
  cases o with
  | ok => exact .inr ⟨s.trace, 0, 0, [], rfl, rfl, by simp⟩
  | openFail => exact .inl rfl
  | configFail => exact .inl rfl

/-- A step of a running INIT that does not end it with an error keeps the order. -/
theorem bringUpStep_endsWithBringUp {s : State} (hl : s.profile.configTable.length = 33) (hb : s.busy = true)
    (h : EndsWithBringUp s) : (bringUpStep s).buPhase = .failed ∨ EndsWithBringUp (bringUpStep s) := by
  cases hf : bringUpForm s with
  | some i => exact (bringUpStep_turn hf).endsWithBringUp hl (xfer_eq_exchanged _ s).1.1 h
  | none =>
    obtain ⟨-, e⟩ | ⟨hp, hidx, e⟩ | ⟨hp, hidx, e⟩ := bringUpStep_noForm hb hf <;> rw [e]
    · exact phaseXportInit_endsWithBringUp s
    · obtain ⟨before, n1, n2, rxs, h⟩ := endsWithBringUp_iff.1 h
      refine .inr (h.sameTrace rfl ?_ fun _ => h.identity (.inl hp))
      rw [bringUpFrames_config n1 n2 hp, writeFrames_of_le hl (hl ▸ hidx)]
      exact (bringUpFrames_settle n1 n2 rfl).trans (List.append_nil _)
    · obtain ⟨before, n1, n2, rxs, h⟩ := endsWithBringUp_iff.1 h
      refine .inr (h.sameTrace rfl ?_ fun _ => h.identity (.inr (.inl hp)))
      rw [bringUpFrames_settle n1 n2 hp, settleFrames_of_le _ hidx]
      exact bringUpFrames_ready n1 n2 rfl

/-- A step of HOST's starts an INIT or none runs after it. -/
theorem exec_bringUpOrdered {i : Instr} {s t : State} (hb : s.busy = false) (h : exec i s = .next t) :
    BringUpOrdered t := by
  intro ht
  by_cases hi : i = .init
  · subst hi
    obtain rfl := Host.Outcome.next.inj h
    obtain hf | he := phaseXportInit_endsWithBringUp (s.setPhase .xportInit)
    · rw [State.busy, hf] at ht
      cases ht
    · exact he
  · obtain ⟨-, -, -, -, hbu, -⟩ := onlyWritersWrite i s t h
    rw [State.busy, (hbu hi).1] at ht
    exact absurd (hb.symm.trans ht) nofun

/-- Settles O26: block reset stops an INIT, a command starts one or leaves none running, and a step of a running INIT adds its
exchange at its place. -/
theorem bringUpOrderKept : Obligations.BringUpOrderKept := by
  intro s t ordered h ht
  obtain ⟨wf, ⟨-, rfl⟩ | ⟨-, hb, rfl⟩ | ⟨-, hb, ⟨i, rest, -, -, he⟩ | ⟨-, rest, -, rfl⟩⟩⟩ := step_cases h
  · cases ht
  · have hl := (profileWf_iff_legalProfile.1 wf).configTable_length
    obtain hf | he := bringUpStep_endsWithBringUp hl hb (ordered hb)
    · rw [State.busy, hf] at ht
      cases ht
    · exact he
  · exact exec_bringUpOrdered (s := s.setHostIn rest) hb he ht
  · exact absurd (hb.symm.trans ht) nofun

/-! ### How an INIT ends -/

/-- A step of a running INIT, from s to t, ends it with an error, or goes on without a response, or completes it with OK. -/
def EndsOrGoesOn (s t : State) : Prop :=
  (t.buPhase = .failed ∧ ∃ code data, code ≠ .ok ∧ t.responses = s.responses ++ [resultByte code :: data]) ∨
  (t.busy = true ∧ t.responses = s.responses) ∨
  (t.buPhase = .ready ∧ t.responses = s.responses ++ [[0x00]])

theorem InitTurn.endsOrGoesOn {s t : State} {tx : List Byte} {o : XferOutcome} (turn : InitTurn s tx o t) :
    EndsOrGoesOn s t := by
  have hb := turn.due.busy
  cases turn with
  | fails _ code data n hc => exact .inl ⟨rfl, code, data, hc, rfl⟩
  | lastSettle => exact .inr (.inr ⟨rfl, rfl⟩)
  | reset | pollReady | identified | lastEntry => exact .inr (.inl ⟨rfl, rfl⟩)
  | pollNotReady | readNotReady | entry | settle => exact .inr (.inl ⟨hb, rfl⟩)

theorem phaseXportInit_endsOrGoesOn (s : State) : EndsOrGoesOn s (phaseXportInit s) := by
  obtain ⟨o, -, e⟩ := xinit_cases s
  unfold phaseXportInit
  rw [e]
  cases o with
  | ok => exact .inr (.inl ⟨rfl, rfl⟩)
  | openFail => exact .inl ⟨rfl, .transportOpenFail, [], nofun, rfl⟩
  | configFail => exact .inl ⟨rfl, .transportConfigFail, [], nofun, rfl⟩

theorem bringUpStep_endsOrGoesOn {s : State} (hb : s.busy = true) : EndsOrGoesOn s (bringUpStep s) := by
  cases hf : bringUpForm s with
  | some i => exact (bringUpStep_turn hf).endsOrGoesOn
  | none =>
    obtain ⟨-, e⟩ | ⟨-, -, e⟩ | ⟨-, -, e⟩ := bringUpStep_noForm hb hf <;> rw [e]
    · exact phaseXportInit_endsOrGoesOn s
    · exact .inr (.inl ⟨rfl, rfl⟩)
    · exact .inr (.inr ⟨rfl, rfl⟩)

/-- Only OK is 0x00 (60_exceptions.md R320). -/
theorem resultByte_ne_zero {code : ResultCode} (h : code ≠ .ok) : resultByte code ≠ 0x00 := by
  cases code with
  | ok => exact absurd rfl h
  | _ => decide

/-- INIT answers OK where it reaches READY, and nowhere else. -/
theorem EndsOrGoesOn.ok_iff_ready {s t : State} (h : EndsOrGoesOn s t) :
    t.responses = s.responses ++ [[0x00]] ↔ t.buPhase = .ready := by
  obtain ⟨hp, code, data, hc, hr⟩ | ⟨hb, hr⟩ | ⟨hp, hr⟩ := h
  · simp only [hp, hr, reduceCtorEq, iff_false, List.append_cancel_left_eq, List.cons.injEq, and_true, not_and]
    exact fun h0 => absurd h0 (resultByte_ne_zero hc)
  · have hp : t.buPhase ≠ .ready := fun hp => by rw [State.busy, hp] at hb; cases hb
    simp [hp, hr]
  · simp [hp, hr]

/-- Settles O27: a step that ends an INIT without an error keeps the order, and at READY the order is the whole sequence. -/
theorem initOkMadeWholeSequence : Obligations.InitOkMadeWholeSequence := by
  intro s t ordered hb h
  obtain ⟨wf, ⟨-, rfl⟩ | ⟨-, -, rfl⟩ | ⟨-, hb', -⟩⟩ := step_cases h
  · exact ⟨fun hr => by simp [blockReset, State.reset] at hr, nofun⟩
  · have okIff := (bringUpStep_endsOrGoesOn hb).ok_iff_ready
    have whole : (bringUpStep s).buPhase = .ready → EndsWithBringUp (bringUpStep s) := fun hp =>
      (bringUpStep_endsWithBringUp (profileWf_iff_legalProfile.1 wf).configTable_length hb (ordered hb)).resolve_left
        (by simp [hp])
    exact ⟨fun hr => ⟨okIff.1 hr, whole (okIff.1 hr)⟩, fun hp => ⟨okIff.2 hp, whole hp⟩⟩
  · exact absurd (hb.symm.trans hb') nofun

end Sys2Proof.Machine
end

section
/-! SUPPORT. Configuration before strobes (spec/70_reset_and_hazards.md R353): a running INIT applies the whole table before its
first strobe after RESET, and what HOST's operations send before their last exchange is no strobe. -/

namespace Sys2Proof.Machine

open Sys2Proof.Safety

/-! ### Which exchanges are strobes -/

theorem mem_profileCodes {p : Profile} {st : Strobe} {code : Byte} (h : strobeCode p st = some code) :
    code ∈ profileCodes p := List.mem_filterMap.2 ⟨st, mem_allStrobes st, h⟩

theorem strobeSent_code {p : Profile} {code : Byte} (o : XferOutcome) (h : code ∈ profileCodes p) :
    strobeSent p (.xfer [code] o) = some code := if_pos h

theorem strobeSent_of_not_code {p : Profile} {b : Byte} (o : XferOutcome) (h : b ∉ profileCodes p) :
    strobeSent p (.xfer [b] o) = none := if_neg h

/-- The status poll is no strobe (spec/00_scope.md R8 (3)). -/
theorem strobeSent_poll {p : Profile} (legal : LegalProfile p) (o : XferOutcome) :
    strobeSent p (.xfer [0x00] o) = none :=
  strobeSent_of_not_code o fun h => (legal.code_range 0x00 h).2 rfl

/-- A burst write is no strobe, not even one without a payload (R8 (2)). -/
theorem strobeSent_burstWrite {p : Profile} (legal : LegalProfile p) (a : RegAddr) (bs : List Byte) (o : XferOutcome) :
    strobeSent p (.xfer (frameBurstWrite a bs) o) = none := by
  cases bs with
  | nil => exact strobeSent_of_not_code o fun h => (opc_burst_toNat .write a).not_gt (legal.code_range _ h).1
  | cons b bs => rfl

theorem strobeSent_reset (p : Profile) (o : XferOutcome) :
    strobeSent p (.xfer [p.strobes.reset] o) = some p.strobes.reset :=
  strobeSent_code o (mem_profileCodes (st := .reset) rfl)

/-- No settle strobe is RESET (R8 (1)). -/
theorem strobeSent_settle {p : Profile} (legal : LegalProfile p) {code : Byte} (hc : code ∈ settleCodes p)
    (o : XferOutcome) : strobeSent p (.xfer [code] o) ≠ some p.strobes.reset := by
  obtain ⟨st, hne, hst⟩ : ∃ st, st ≠ .reset ∧ strobeCode p st = some code := by
    simp only [settleCodes, List.mem_cons, List.not_mem_nil, or_false] at hc
    obtain rfl | rfl | rfl | rfl := hc
    · exact ⟨.idle, nofun, rfl⟩
    · exact ⟨.idle, nofun, rfl⟩
    · exact ⟨.powerDown, nofun, rfl⟩
    · exact ⟨.idle, nofun, rfl⟩
  rw [strobeSent_code o (mem_profileCodes hst)]
  exact fun h => hne (strobeCode_injective legal (hst.trans h) rfl)

/-! ### The table stands applied after the transactions of an INIT -/

/-- The entries applied after k and the answered exchanges of these frames. -/
def framesApplied (p : Profile) (k : Nat) (frames : List (List Byte)) : Nat :=
  entriesApplied p k (frames.map fun tx => .xfer tx (.ok []))

/-- What was received plays no part. -/
theorem entriesAfter_ok (p : Profile) (k : Nat) (tx rx : List Byte) :
    entriesAfter p k (.xfer tx (.ok rx)) = entriesAfter p k (.xfer tx (.ok [])) := by
  match tx with
  | [] => rfl
  | [_] => rfl
  | _ :: _ :: _ => rfl

theorem entriesApplied_answeredEvents (p : Profile) (k : Nat) {frames rxs : List (List Byte)}
    (h : rxs.length = frames.length) : entriesApplied p k (answeredEvents frames rxs) = framesApplied p k frames := by
  induction frames generalizing k rxs with
  | nil => simp [answeredEvents, framesApplied]
  | cons tx frames ih =>
    obtain ⟨rx, rxs, rfl⟩ := List.exists_cons_of_length_eq_add_one h
    have step := ih (entriesAfter p k (.xfer tx (.ok []))) (Nat.succ.inj h)
    rw [← entriesAfter_ok p k tx rx] at step
    exact step.trans (by rw [entriesAfter_ok]; rfl)

theorem framesApplied_append (p : Profile) (k : Nat) (fs gs : List (List Byte)) :
    framesApplied p k (fs ++ gs) = framesApplied p (framesApplied p k fs) gs := by
  rw [framesApplied, List.map_append, entriesApplied_append]
  rfl

theorem entriesAfter_of_no_strobe {p : Profile} {e : Event} (k : Nat) (hs : strobeSent p e = none)
    (hw : writesEntry p k e = false) : entriesAfter p k e = k := by
  simp [entriesAfter, hs, hw]

theorem framesApplied_replicate {p : Profile} {tx : List Byte} (n k : Nat)
    (h : entriesAfter p k (.xfer tx (.ok [])) = k) : framesApplied p k (List.replicate n tx) = k := by
  induction n with
  | zero => rfl
  | succ n ih =>
    have first : framesApplied p k (tx :: List.replicate n tx) =
        framesApplied p (entriesAfter p k (.xfer tx (.ok []))) (List.replicate n tx) := rfl
    rw [List.replicate_succ, first, h, ih]

/-- A poll applies no entry: a configuration write has two bytes. -/
theorem entriesAfter_poll {p : Profile} (legal : LegalProfile p) (k : Nat) :
    entriesAfter p k (.xfer [0x00] (.ok [])) = k := by
  refine entriesAfter_of_no_strobe k (strobeSent_poll legal _) ?_
  simp [writesEntry]

/-- A read header has bit 7 set, a write header has not (30_encoding.md R90). -/
theorem writeHeader_ne_readHeader (a b : RegAddr) : (a.setWidth 8 : Byte) ≠ 0xC0 ||| b.setWidth 8 := by
  intro h
  have bit := congrArg (·.getLsbD 7) h
  simp at bit

theorem entriesAfter_identityRead (p : Profile) (k : Nat) (a : RegAddr) :
    entriesAfter p k (.xfer [0xC0 ||| a.setWidth 8, 0x00] (.ok [])) = k := by
  refine entriesAfter_of_no_strobe k rfl ?_
  simp only [writesEntry, decide_eq_false_iff_not, Option.map_eq_some_iff, not_exists, not_and]
  intro e _ h
  exact writeHeader_ne_readHeader e.1 a (List.cons.inj h).1

/-- RESET starts over, and neither poll applies an entry. -/
theorem framesApplied_readFrames {p : Profile} (legal : LegalProfile p) (k n1 n : Nat) :
    framesApplied p k (readFrames p n1 n) = 0 := by
  have reset : framesApplied p k [[p.strobes.reset]] = 0 := if_pos (strobeSent_reset p _)
  rw [readFrames, pollFrames, framesApplied_append, framesApplied_append, reset,
    framesApplied_replicate _ _ (entriesAfter_poll legal 0),
    framesApplied_replicate _ _ (entriesAfter_identityRead p 0 p.idRegAddr)]

/-- The configuration writes apply the table entry by entry. -/
theorem framesApplied_writeFrames {p : Profile} {n : Nat} (hn : n ≤ p.configTable.length) :
    framesApplied p 0 (writeFrames p n) = n := by
  induction n with
  | zero => rfl
  | succ n ih =>
    have he : p.configTable[n]? = some p.configTable[n] := List.getElem?_eq_getElem hn
    have applied : entriesAfter p n (.xfer [p.configTable[n].1.setWidth 8, p.configTable[n].2] (.ok [])) = n + 1 := by
      simp [entriesAfter, strobeSent, writesEntry, he]
    rw [writeFrames_succ he, framesApplied_append, ih (Nat.le_of_succ_le hn)]
    exact applied

/-- Without a RESET strobe no applied entry is lost. -/
theorem le_entriesApplied {p : Profile} (k : Nat) {es : List Event}
    (h : ∀ e ∈ es, strobeSent p e ≠ some p.strobes.reset) : k ≤ entriesApplied p k es := by
  induction es generalizing k with
  | nil => exact le_rfl
  | cons e es ih =>
    exact (le_entriesAfter k (h e List.mem_cons_self)).trans (ih _ fun e he => h e (List.mem_cons_of_mem _ he))

/-- The settle strobes lose no applied entry. -/
theorem le_framesApplied_settleFrames {p : Profile} (legal : LegalProfile p) (k n : Nat) :
    k ≤ framesApplied p k (settleFrames p n) := by
  refine le_entriesApplied k fun e he => ?_
  obtain ⟨tx, htx, rfl⟩ := List.mem_map.1 he
  obtain ⟨code, hc, rfl⟩ := List.mem_map.1 htx
  exact strobeSent_settle legal (List.mem_of_mem_take hc) _

/-- In phase SETTLE and after the INIT the whole table stands applied. -/
theorem table_applied_of_endsWithBringUp {s : State} (legal : LegalProfile s.profile) (h : EndsWithBringUp s)
    (hp : s.buPhase = .settle ∨ s.buPhase = .ready) :
    s.profile.configTable.length ≤ entriesApplied s.profile 0 s.trace := by
  obtain ⟨before, n1, n2, rxs, h⟩ := endsWithBringUp_iff.1 h
  obtain ⟨j, hf⟩ : ∃ j, bringUpFrames s n1 n2 =
      readFrames s.profile n1 (n2 + 1) ++ writeFrames s.profile 33 ++ settleFrames s.profile j :=
    hp.elim (fun hp => ⟨_, bringUpFrames_settle n1 n2 hp⟩) fun hp => ⟨_, bringUpFrames_ready n1 n2 hp⟩
  rw [h.trace, entriesApplied_append, entriesApplied_cons, entriesApplied_answeredEvents _ _ h.length, hf,
    framesApplied_append, framesApplied_append, framesApplied_readFrames legal,
    framesApplied_writeFrames legal.configTable_length.ge, legal.configTable_length]
  exact le_framesApplied_settleFrames legal 33 j

/-! ### TRACE with more events -/

/-- Events that are RESET or no strobe are never too early. -/
theorem tableBeforeStrobesFrom_of_no_strobe {p : Profile} (k : Nat) {es : List Event}
    (h : ∀ e ∈ es, strobeSent p e = none ∨ strobeSent p e = some p.strobes.reset) :
    tableBeforeStrobesFrom p k es = true := by
  induction es generalizing k with
  | nil => rfl
  | cons e es ih =>
    have first : strobeAfterTable p k e = true :=
      (h e List.mem_cons_self).elim (strobeAfterTable_of_none k) (strobeAfterTable_reset k)
    rw [tableBeforeStrobesFrom_cons, first, ih _ fun e he => h e (List.mem_cons_of_mem _ he)]
    rfl

/-- After the whole table no event is too early, where RESET comes last if at all. -/
theorem tableBeforeStrobesFrom_of_le {p : Profile} {k : Nat} {es : List Event} (hk : p.configTable.length ≤ k)
    (h : ∀ e ∈ es.dropLast, strobeSent p e ≠ some p.strobes.reset) : tableBeforeStrobesFrom p k es = true := by
  induction es generalizing k with
  | nil => rfl
  | cons e es ih =>
    rw [tableBeforeStrobesFrom_cons, strobeAfterTable_of_le e hk]
    cases es with
    | nil => rfl
    | cons e' es =>
      rw [List.dropLast_cons_cons] at h
      exact ih (hk.trans (le_entriesAfter k (h e List.mem_cons_self))) fun e he => h e (List.mem_cons_of_mem _ he)

theorem tableBeforeStrobes_append {s t : State} {evs : List Event} (hp : t.profile = s.profile)
    (ht : t.trace = s.trace ++ evs) (hs : tableBeforeStrobes s = true)
    (he : tableBeforeStrobesFrom s.profile (entriesApplied s.profile 0 s.trace) evs = true) :
    tableBeforeStrobes t = true := by
  rw [tableBeforeStrobes] at hs ⊢
  rw [hp, ht, tableBeforeStrobesFrom_append, hs, he]
  rfl

/-- More events without a RESET strobe lose no applied entry. -/
theorem table_applied_append {s t : State} {evs : List Event} (hp : t.profile = s.profile)
    (ht : t.trace = s.trace ++ evs) (hs : s.profile.configTable.length ≤ entriesApplied s.profile 0 s.trace)
    (h : ∀ e ∈ evs, strobeSent s.profile e ≠ some s.profile.strobes.reset) :
    t.profile.configTable.length ≤ entriesApplied t.profile 0 t.trace := by
  rw [hp, ht, entriesApplied_append]
  exact hs.trans (le_entriesApplied _ h)

/-! ### The exchange of a running INIT -/

/-- In phase SETTLE the exchange due is not RESET; in every other phase it is RESET or no strobe. -/
theorem Due.strobeSent {s : State} {tx : List Byte} (due : Due s tx) (legal : LegalProfile s.profile) (o : XferOutcome) :
    (s.buPhase = .settle ∧ strobeSent s.profile (.xfer tx o) ≠ some s.profile.strobes.reset) ∨
    (s.buPhase ≠ .settle ∧ (strobeSent s.profile (.xfer tx o) = none ∨
      strobeSent s.profile (.xfer tx o) = some s.profile.strobes.reset)) := by
  cases due with
  | reset hp => exact .inr ⟨by simp [hp], .inr (strobeSent_reset _ o)⟩
  | readyPoll hp => exact .inr ⟨by simp [hp], .inl (strobeSent_poll legal o)⟩
  | idPoll hp => exact .inr ⟨by simp [hp], .inl rfl⟩
  | config hp => exact .inr ⟨by simp [hp], .inl rfl⟩
  | settle hp code hc => exact .inl ⟨hp, strobeSent_settle legal (List.mem_of_getElem? hc) o⟩

/-- The events of a step of a running INIT: in phase SETTLE none is RESET, in every other phase each is RESET or no strobe. -/
theorem bringUpStep_events {s : State} (legal : LegalProfile s.profile) (hb : s.busy = true) :
    ∃ evs, (bringUpStep s).trace = s.trace ++ evs ∧
      ((s.buPhase = .settle ∧ ∀ e ∈ evs, strobeSent s.profile e ≠ some s.profile.strobes.reset) ∨
       (s.buPhase ≠ .settle ∧
        ∀ e ∈ evs, strobeSent s.profile e = none ∨ strobeSent s.profile e = some s.profile.strobes.reset)) := by
  cases hf : bringUpForm s with
  | some i =>
    have turn := bringUpStep_turn hf
    refine ⟨_, turn.trace, ?_⟩
    simpa only [List.mem_singleton, forall_eq] using turn.due.strobeSent legal (xfer (encode s.profile i) s).1
  | none =>
    obtain ⟨hp, e⟩ | ⟨hp, -, e⟩ | ⟨hp, -, e⟩ := bringUpStep_noForm hb hf <;> rw [e]
    · obtain ⟨o, -, ex⟩ := xinit_cases s
      refine ⟨[.xinit o], ?_, .inr ⟨by simp [hp], fun e he => .inl ?_⟩⟩
      · unfold phaseXportInit
        rw [ex]
        cases o <;> rfl
      · rw [List.mem_singleton.1 he]
        rfl
    · exact ⟨[], (List.append_nil _).symm, .inr ⟨by simp [hp], nofun⟩⟩
    · exact ⟨[], (List.append_nil _).symm, .inl ⟨hp, nofun⟩⟩

/-! ### The exchanges of HOST's operations -/

/-- What a host operation other than INIT logs: at most one exchange, or those of a FIFO_WRITE or a FIFO_READ. -/
def HostExchanges (s t : State) : Prop :=
  ∃ evs, t.trace = s.trace ++ evs ∧
    (evs.length ≤ 1 ∨ (∃ p code, FifoWriteRun s p code evs) ∨ ∃ r, FifoReadRun s r evs)

theorem HostExchanges.nothing {s t : State} (h : t.trace = s.trace) : HostExchanges s t := ⟨[], by simp [h], by simp⟩

theorem HostExchanges.one {s t : State} {e : Event} (h : t.trace = s.trace ++ [e]) : HostExchanges s t :=
  ⟨[e], h, .inl le_rfl⟩

theorem setReg_exchanges (a v : Byte) (s : State) : HostExchanges s (answer (setReg a v s)) := by
  unfold setReg
  split
  · exact .nothing rfl
  · obtain ⟨o, -, e⟩ := xfer_cases (frameSingleWrite (addrField a) v) s
    rw [e]
    cases o <;> exact .one rfl

theorem getReg_exchanges (a : Byte) (s : State) : HostExchanges s (answer (getReg a s)) := by
  unfold getReg
  split
  · exact .nothing rfl
  · obtain ⟨o, -, e⟩ := xfer_cases (frameSingleRead (addrField a)) s
    rw [e]
    cases o <;> exact .one rfl

theorem strobe_exchanges (sel : Byte) (s : State) : HostExchanges s (answer (strobe sel s)) := by
  unfold strobe
  split
  · exact .nothing rfl
  · rename_i code _
    obtain ⟨o, -, e⟩ := xfer_cases (frameStrobe code) s
    rw [e]
    cases o <;> exact .one rfl

theorem fifoWrite_exchanges (p : List Byte) (s : State) : HostExchanges s (answer (fifoWriteReply (fifoWrite p s))) := by
  obtain ⟨r, evs, o, run, -, e⟩ := fifoWrite_cases p s
  rw [e]
  exact ⟨evs, rfl, .inr (.inl ⟨p, _, run⟩)⟩

theorem fifoRead_exchanges (s : State) : HostExchanges s (answer (fifoReadReply (fifoRead s))) := by
  obtain ⟨r, evs, o, run, -, e⟩ := fifoRead_cases s
  rw [e]
  cases r <;> exact ⟨evs, rfl, .inr (.inr ⟨_, run⟩)⟩

theorem recvPacket_exchanges (s : State) : HostExchanges s (answer (recvPacket s)) := by
  obtain ⟨r, evs, o, run, -, e⟩ := fifoRead_cases s
  unfold recvPacket
  rw [e]
  cases r with
  | error code => exact ⟨evs, rfl, .inr (.inr ⟨_, run⟩)⟩
  | ok q =>
    obtain ⟨code, data, -, e'⟩ := parseFrame_cases q.2 (q.1 :: q.2)
    simp only [e']
    exact ⟨evs, rfl, .inr (.inr ⟨_, run⟩)⟩

/-- A send is refused or faults without an exchange, or it is a FIFO_WRITE of the packet (R214, R215). -/
theorem send_exchanges {i : Instr} {cmd cf : Byte} {c : Color} {s t : State}
    (hi : sendOperands i = some (cmd, cf, c)) (h : exec i s = .next t) : HostExchanges s t := by
  obtain ⟨refused, faults⟩ := sendRefusedBeforeExchange s i cmd cf c hi
  by_cases legal : LegalOperands cmd cf
  · cases hu : firstUnwritten s cf with
    | some bit =>
      obtain rfl := Host.Outcome.next.inj (h.symm.trans (faults legal bit hu))
      exact .nothing rfl
    | none =>
      obtain ⟨r, evs, o, run, e⟩ := exec_send_cases hi legal hu
      obtain rfl := Host.Outcome.next.inj (h.symm.trans e)
      exact ⟨evs, seqAdvance_trace r _, .inr (.inl ⟨_, _, run⟩)⟩
  · obtain rfl := Host.Outcome.next.inj (h.symm.trans (refused legal))
    exact .nothing rfl

theorem build_trace (cmd cf : Byte) (c : Color) (s : State) : (answer (build cmd cf c s)).trace = s.trace := by
  unfold build
  split
  · rfl
  · split <;> rfl

theorem parse_trace (b : List Byte) (s : State) : (answer (parse b s)).trace = s.trace := by
  obtain ⟨code, data, -, e⟩ := parseFrame_cases b []
  rw [parse, e]
  rfl

theorem readWritten_trace (w : Bool) (b : FaultBit) (data : List Byte) (s : State) :
    (answer (readWritten w b data s)).trace = s.trace := by
  unfold readWritten
  split <;> rfl

theorem exec_host_exchanges {i : Instr} {s t : State} (hw : i.isWire = false) (hi : i ≠ .init)
    (h : exec i s = .next t) : HostExchanges s t := by
  have next : ∀ {u : State}, Host.Outcome.next u = (.next t : Host.Outcome State Fault Refusal) →
      HostExchanges s u → HostExchanges s t := fun e hu => Host.Outcome.next.inj e ▸ hu
  cases i with
  | init => exact absurd rfl hi
  | setReg a v => exact next h (setReg_exchanges a v s)
  | getReg a => exact next h (getReg_exchanges a s)
  | strobe sel => exact next h (strobe_exchanges sel s)
  | fifoWrite p => exact next h (fifoWrite_exchanges p s)
  | fifoRead => exact next h (fifoRead_exchanges s)
  | recvPacket => exact next h (recvPacket_exchanges s)
  | send | turnOn | turnOff | setColor => exact send_exchanges rfl h
  | build cmd cf c => exact next h (.nothing (build_trace cmd cf c s))
  | parse b => exact next h (.nothing (parse_trace b s))
  | rdAddr | rdSeq | rdColor => exact next h (.nothing (readWritten_trace _ _ _ s))
  | learn | rgbToHsi | wrAddr | wrSeq | wrColor | wrCtrl | rdCtrl | wrPollLimit | rdPollLimit | rdFault | rdBustate =>
    exact next h (.nothing rfl)
  | _ => exact absurd hw (by simp [Instr.isWire])

/-- Of the exchanges of a host operation only the last can be a strobe. -/
theorem HostExchanges.strobeLast {s t : State} (legal : LegalProfile s.profile) (h : HostExchanges s t) :
    ∃ evs, t.trace = s.trace ++ evs ∧ ∀ e ∈ evs.dropLast, strobeSent s.profile e = none := by
  obtain ⟨evs, ht, hlen | ⟨p, code, run⟩ | ⟨r, run⟩⟩ := h <;> refine ⟨evs, ht, ?_⟩
  · have noneBefore : evs.dropLast = [] := List.eq_nil_of_length_eq_zero (by rw [List.length_dropLast]; omega)
    exact noneBefore ▸ nofun
  · have data : ∀ o, strobeSent s.profile (.xfer ((0x40 ||| s.profile.fifoAddr.setWidth 8) :: p) o) = none :=
      fun o => frameBurstWrite_eq _ p ▸ strobeSent_burstWrite legal _ p o
    obtain ⟨_, -, ⟨-, -, rfl⟩ | ⟨-, o1, -, ⟨-, -, rfl⟩ | ⟨-, o2, -, -, rfl⟩⟩⟩ := run
    · exact nofun
    · exact nofun
    · simpa using data o1
  · obtain ⟨o1, -, ⟨-, -, rfl⟩ | ⟨sb, _, -, -, ⟨-, -, rfl⟩ | ⟨-, o2, -, rfl, -⟩⟩⟩ := run
    · exact nofun
    · exact nofun
    · simpa using strobeSent_poll legal o1

/-- What a step of HOST's logs: only the last event can be a strobe. -/
theorem hostStep_events {s t : State} (hr : s.resetIn = false) (hb : s.busy = false) (h : step s = .next t) :
    ∃ evs, t.trace = s.trace ++ evs ∧ ∀ e ∈ evs.dropLast, strobeSent s.profile e = none := by
  obtain ⟨wf, ⟨hr', -⟩ | ⟨-, hb', -⟩ | ⟨-, -, ⟨i, rest, -, hw, he⟩ | ⟨-, rest, -, rfl⟩⟩⟩ := step_cases h
  · exact absurd (hr.symm.trans hr') nofun
  · exact absurd (hb.symm.trans hb') nofun
  · by_cases hi : i = .init
    · subst hi
      obtain ⟨o, -, e⟩ := execInit_cases (s.setHostIn rest)
      obtain rfl := Host.Outcome.next.inj (e.symm.trans he)
      refine ⟨[.xinit o], ?_, nofun⟩
      cases o <;> rfl
    · exact (exec_host_exchanges hw hi he).strobeLast (profileWf_iff_legalProfile.1 wf)
  · exact ⟨[], (List.append_nil _).symm, nofun⟩

/-! ### The observer of R353 -/

/-- A running INIT issues no strobe too early, and where it leaves the chip configured the whole table stands applied. -/
theorem configuredBeforeStrobes_busy {w : StrobeWatch} {s : State} (legal : LegalProfile s.profile) (hb : s.busy = true)
    (order : EndsWithBringUp s) (hw : w.broken = false → tableBeforeStrobes s = true) :
    ConfiguredBeforeStrobes { w with configured := configuredByInit s (bringUpStep s) w.configured } (bringUpStep s) := by
  have hp := profile_of_sameButBringUp (bringUpStep_frame hb)
  have applied : s.buPhase = .settle → s.profile.configTable.length ≤ entriesApplied s.profile 0 s.trace :=
    fun h => table_applied_of_endsWithBringUp legal order (.inl h)
  obtain ⟨evs, ht, strobes⟩ := bringUpStep_events legal hb
  refine fun broken => ⟨tableBeforeStrobes_append hp ht (hw broken) ?_, fun configured idle => ?_⟩
  · obtain ⟨settle, noReset⟩ | ⟨-, noStrobe⟩ := strobes
    · exact tableBeforeStrobesFrom_of_le (applied settle) fun e he => noReset e (List.mem_of_mem_dropLast he)
    · exact tableBeforeStrobesFrom_of_no_strobe _ noStrobe
  · obtain ⟨failed, -⟩ | ⟨hb', -⟩ | ⟨ready, -⟩ := bringUpStep_endsOrGoesOn hb
    · have settle : s.buPhase = .settle := by
        by_contra hs
        simp [configuredByInit, failed, hs] at configured
      obtain ⟨-, noReset⟩ | ⟨hs, -⟩ := strobes
      · exact table_applied_append hp ht (applied settle) noReset
      · exact absurd settle hs
    · exact absurd (idle.symm.trans hb') nofun
    · have order' := (bringUpStep_endsWithBringUp legal.configTable_length hb order).resolve_left (by simp [ready])
      exact table_applied_of_endsWithBringUp (hp ▸ legal) order' (.inr ready)

/-- A host operation that breaks nothing: before the table stands applied it issues no strobe, after that RESET comes last. -/
theorem configuredBeforeStrobes_host {w : StrobeWatch} {s t : State} (hr : s.resetIn = false) (hb : s.busy = false)
    (h : step s = .next t) (hw : ConfiguredBeforeStrobes w s) : ConfiguredBeforeStrobes (w.next s t) t := by
  have hp := (step_appends hr h).profile
  obtain ⟨evs, ht, strobeLast⟩ := hostStep_events hr hb h
  intro broken
  have next := watch_next_host w hr hb ht
  have broken' := broken
  rw [next] at broken'
  obtain ⟨before, applied⟩ := hw (Bool.or_eq_false_iff.1 broken').1
  cases hc : w.configured with
  | false =>
    have noStrobe := no_strobe_of_not_broken hr hb ht hc broken
    exact ⟨tableBeforeStrobes_append hp ht before (tableBeforeStrobesFrom_of_no_strobe _ fun e he => .inl (noStrobe e he)),
      fun configured => by simp [next, hc] at configured⟩
  | true =>
    have applied := applied hc hb
    refine ⟨tableBeforeStrobes_append hp ht before (tableBeforeStrobesFrom_of_le applied fun e he => ?_),
      fun configured _ => table_applied_append hp ht applied fun e he reset => ?_⟩
    · rw [strobeLast e he]
      nofun
    · rw [next] at configured
      simp only [hc, undoesConfiguration, Bool.true_and, Bool.not_eq_true', List.any_eq_false] at configured
      exact configured e he (by simp [reset])

/-- Every step keeps configuration before strobes, as the observer of R353 sees it. -/
theorem step_configuredBeforeStrobes {w : StrobeWatch} {s t : State} (ordered : BringUpOrdered s)
    (hw : ConfiguredBeforeStrobes w s) (h : step s = .next t) : ConfiguredBeforeStrobes (w.next s t) t := by
  obtain ⟨wf, ⟨hr, rfl⟩ | ⟨hr, hb, rfl⟩ | ⟨hr, hb, -⟩⟩ := step_cases h
  · rw [watch_next_reset _ w hr]
    exact fun _ => ⟨rfl, nofun⟩
  · rw [watch_next_busy _ w hr hb]
    exact configuredBeforeStrobes_busy (profileWf_iff_legalProfile.1 wf) hb (ordered hb) fun broken => (hw broken).1
  · exact configuredBeforeStrobes_host hr hb h hw

/-- A running INIT, and a block reset, break nothing. -/
theorem watch_next_broken_of_busy {s : State} (t : State) (w : StrobeWatch) (hb : s.busy = true) :
    (w.next s t).broken = w.broken := by
  cases hr : s.resetIn with
  | true => rw [watch_next_reset t w hr]
  | false => rw [watch_next_busy t w hr hb]

theorem watch_run_succ {k : Nat} {s s' : State} (w : StrobeWatch) (h : step s = .next s') :
    StrobeWatch.run (k + 1) s w = StrobeWatch.run k s' (w.next s s') := by
  rw [StrobeWatch.run.eq_def]
  simp only [h]

/-- The step lemma along a run, with the observer. -/
theorem run_configuredBeforeStrobes {k : Nat} {w : StrobeWatch} {s t : State} (ordered : BringUpOrdered s)
    (hw : ConfiguredBeforeStrobes w s) (h : Host.Core.run Sys2Proof.core k s = .next t) :
    ConfiguredBeforeStrobes (StrobeWatch.run k s w) t := by
  induction k generalizing w s with
  | zero =>
    obtain rfl : s = t := Host.Outcome.next.inj h
    exact hw
  | succ k ih =>
    obtain ⟨s', e, h⟩ := run_succ_inv h
    rw [watch_run_succ w e]
    exact ih (bringUpOrderKept s s' ordered e) (step_configuredBeforeStrobes ordered hw e) h

/-- Settles O28: the step lemma, and the run from an idle state with an empty TRACE, where the observer's start holds. -/
theorem initConfiguresBeforeStrobes : Obligations.InitConfiguresBeforeStrobes := by
  refine ⟨fun w s t ordered hw h => ⟨step_configuredBeforeStrobes ordered hw h, watch_next_broken_of_busy t w⟩,
    fun k s t idle empty noBreaking h => ?_⟩
  have ordered : BringUpOrdered s := fun hb => absurd (idle.symm.trans hb) nofun
  have start : ConfiguredBeforeStrobes .start s := fun _ => ⟨by rw [tableBeforeStrobes, empty]; rfl, nofun⟩
  exact (run_configuredBeforeStrobes ordered start h noBreaking).1

end Sys2Proof.Machine
end

section
/-! SUPPORT. What the steps of an INIT do with given answers (spec/41_bringup.md R170 to R179): its start, a failed exchange, the
outcomes of the two polls, and the whole sequence to READY. -/

namespace Sys2Proof.Machine

open Sys2Proof.Safety

/-! ### One step with its answer on the tape -/

/-- A running INIT whose exchange has its answer on the tape. -/
theorem step_of_due {s : State} {tx : List Byte} {x : XferOutcome} (wf : profileWf s.profile = true)
    (hr : s.resetIn = false) (due : Due s tx) (tape : s.oracle.xfer[0]? = some x) (hx : AnswersBytes tx.length x) :
    step s = .next (bringUpNext (s.exchanged tx x) x) := by
  rw [step_busy wf hr due.busy, bringUpStep_of_due due (xfer_of_tape tx s x tape hx)]

theorem bringUpNext_exchanged_trace {s : State} {tx : List Byte} (due : Due s tx) (x : XferOutcome) :
    (bringUpNext (s.exchanged tx x) x).trace = s.trace ++ [.xfer tx x] := (initTurn_bringUpNext due x).trace

theorem bringUpNext_exchanged_frame (s : State) (tx : List Byte) (x : XferOutcome) :
    SameButBringUp s (bringUpNext (s.exchanged tx x) x) :=
  sameButBringUp_trans (exchanged_frame s tx x) (bringUpNext_frame _ x)

theorem pollLimitReached_eq_true {s : State} :
    pollLimitReached s = true ↔ s.pollLimit ≠ 0 ∧ s.pollLimit.toNat ≤ s.pollCnt := by
  simp [pollLimitReached]

theorem pollLimitReached_eq_false {s : State} :
    pollLimitReached s = false ↔ s.pollLimit = 0 ∨ s.pollCnt < s.pollLimit.toNat := by
  rw [← Bool.not_eq_true, pollLimitReached_eq_true, not_and, not_le, or_iff_not_imp_left]

/-- Bit 7 of the first received byte says whether the chip is ready (30_encoding.md R95). -/
theorem status_head (sb : Byte) (rx : List Byte) : statusNotReady (rxByte (sb :: rx) 0) = sb.getLsbD 7 := rfl

section Polls

variable {s : State} {tx rx : List Byte}

/-- Not ready at the bound. -/
theorem bringUpNext_timeout (hp : s.buPhase = .readyPoll ∨ s.buPhase = .idPoll)
    (hr : statusNotReady (rxByte rx 0) = true) (limit : s.pollLimit ≠ 0 ∧ s.pollLimit.toNat ≤ s.pollCnt + 1) :
    bringUpNext (s.exchanged tx (.ok rx)) (.ok rx) =
      failInit .timeout [] ((s.exchanged tx (.ok rx)).setPollCnt (s.pollCnt + 1)) := by
  have reached : pollLimitReached ((s.exchanged tx (.ok rx)).setPollCnt (s.pollCnt + 1)) = true := by
    rw [pollLimitReached_eq_true]
    exact limit
  rw [bringUpNext_notReady (s := s.exchanged tx _) rx hp hr]
  exact pollAgain_of_limit reached

/-- Not ready below the bound, or with no bound. -/
theorem bringUpNext_pollsOn (hp : s.buPhase = .readyPoll ∨ s.buPhase = .idPoll)
    (hr : statusNotReady (rxByte rx 0) = true) (below : s.pollLimit = 0 ∨ s.pollCnt + 1 < s.pollLimit.toNat) :
    bringUpNext (s.exchanged tx (.ok rx)) (.ok rx) = (s.exchanged tx (.ok rx)).setPollCnt (s.pollCnt + 1) := by
  have notReached : pollLimitReached ((s.exchanged tx (.ok rx)).setPollCnt (s.pollCnt + 1)) = false := by
    rw [pollLimitReached_eq_false]
    exact below
  rw [bringUpNext_notReady (s := s.exchanged tx _) rx hp hr]
  exact pollAgain_of_below notReached

theorem bringUpNext_polled (hp : s.buPhase = .readyPoll) (hr : statusNotReady (rxByte rx 0) = false) :
    bringUpNext (s.exchanged tx (.ok rx)) (.ok rx) =
      startPoll .idPoll ((s.exchanged tx (.ok rx)).setPollCnt (s.pollCnt + 1)) :=
  bringUpNext_readyPoll (s := s.exchanged tx _) rx hp hr

theorem bringUpNext_identified (hp : s.buPhase = .idPoll) (hr : statusNotReady (rxByte rx 0) = false)
    (hv : rxByte rx 1 = 0x80) :
    bringUpNext (s.exchanged tx (.ok rx)) (.ok rx) =
      startConfig ((s.exchanged tx (.ok rx)).setPollCnt (s.pollCnt + 1)) :=
  (bringUpNext_idPoll (s := s.exchanged tx _) rx hp hr).trans (if_pos hv)

theorem bringUpNext_mismatch (hp : s.buPhase = .idPoll) (hr : statusNotReady (rxByte rx 0) = false)
    (hv : rxByte rx 1 ≠ 0x80) :
    bringUpNext (s.exchanged tx (.ok rx)) (.ok rx) =
      failInit .deviceMismatch [rxByte rx 1] ((s.exchanged tx (.ok rx)).setPollCnt (s.pollCnt + 1)) :=
  (bringUpNext_idPoll (s := s.exchanged tx _) rx hp hr).trans (if_neg hv)

end Polls

/-! ### The obligations about one step -/

/-- Settles O18: `execInit_cases` gives the three outcomes. -/
theorem initStartsTransport : Obligations.InitStartsTransport := by
  intro s
  obtain ⟨o, tape, e⟩ := execInit_cases s
  refine ⟨_, o, e, tape, ?_⟩
  cases o with
  | ok => exact ⟨rfl, rfl, fun _ => ⟨rfl, rfl⟩, nofun, nofun⟩
  | openFail => exact ⟨rfl, rfl, nofun, fun _ => ⟨rfl, rfl⟩, nofun⟩
  | configFail => exact ⟨rfl, rfl, nofun, nofun, fun _ => ⟨rfl, rfl⟩⟩

/-- Settles O20: whatever exchange is due, a failure ends INIT. -/
theorem initExchangeFailureEnds : Obligations.InitExchangeFailureEnds := by
  intro s i wf hr form tape
  exact ⟨_, step_of_due wf hr (due_of_bringUpForm form) tape trivial, rfl, rfl, rfl, rfl⟩

/-- Settles O21: the answer is ready, or not ready at the bound, or not ready below it. -/
theorem readyPollOutcomes : Obligations.ReadyPollOutcomes := by
  intro s sb wf hr hp tape
  have due : Due s [0x00] := .readyPoll hp
  refine ⟨_, step_of_due wf hr due tape rfl, bringUpNext_exchanged_trace due _, bringUpNext_exchanged_frame _ _ _,
    fun ready => ?_, fun notReady limit => ?_, fun notReady below => ?_⟩
  · rw [bringUpNext_polled hp ((status_head _ _).trans ready)]
    exact ⟨rfl, rfl, rfl⟩
  · rw [bringUpNext_timeout (.inl hp) ((status_head _ _).trans notReady) limit]
    exact ⟨rfl, rfl⟩
  · rw [bringUpNext_pollsOn (.inl hp) ((status_head _ _).trans notReady) below]
    exact ⟨hp, rfl, rfl⟩

/-- Settles O22: as for the ready poll, and a ready answer's value is the identity or it is not. -/
theorem identityReadOutcomes : Obligations.IdentityReadOutcomes := by
  intro s sb v wf hr hp tape
  have due := Due.idPoll hp
  refine ⟨_, step_of_due wf hr due tape rfl, bringUpNext_exchanged_trace due _, bringUpNext_exchanged_frame _ _ _,
    fun ready identity => ?_, fun ready other => ?_, fun notReady limit => ?_, fun notReady below => ?_⟩
  · rw [bringUpNext_identified hp ((status_head sb [v]).trans ready) identity]
    exact ⟨rfl, rfl, rfl⟩
  · rw [bringUpNext_mismatch hp ((status_head sb [v]).trans ready) other]
    exact ⟨rfl, rfl⟩
  · rw [bringUpNext_timeout (.inr hp) ((status_head sb [v]).trans notReady) limit]
    exact ⟨rfl, rfl⟩
  · rw [bringUpNext_pollsOn (.inr hp) ((status_head sb [v]).trans notReady) below]
    exact ⟨hp, rfl, rfl⟩

/-- The invariant leaves a running INIT no phase and no index without a wire form (R29). -/
theorem bringUpForm_of_inv {s : State} (hs : Inv s) (hb : s.busy = true) : ∃ i, bringUpForm s = some i := by
  refine Option.ne_none_iff_exists'.1 fun hf => ?_
  obtain ⟨hp, -⟩ | ⟨hp, past, -⟩ | ⟨hp, past, -⟩ := bringUpStep_noForm hb hf
  · exact hs.notXportInit hp
  · rw [(profileWf_iff_legalProfile.1 hs.profileOk).configTable_length] at past
    exact past.not_gt (hs.cfgInRange hp)
  · exact past.not_gt (hs.settleInRange hp)

/-- Settles O25: the step and the wire form make the same exchange, `xfer` of the form's bytes. -/
theorem runningInitPerformsOneWireForm : Obligations.RunningInitPerformsOneWireForm := by
  refine fun s => ⟨bringUpForm_of_inv, fun i wf hr form => ?_⟩
  obtain ⟨hw, hne⟩ := bringUpForm_wire form
  have hb := busy_of_bringUpForm form
  have turn := bringUpStep_turn form
  have exchange : exec i s = .next (s.exchanged (encode s.profile i) (xfer (encode s.profile i) s).1) := by
    rw [exec_wire i s hw hne, wireExchange, (xfer_eq_exchanged _ s).2]
  exact ⟨_, _, step_busy wf hr hb, exchange, turn.trace, turn.oracle, bringUpStep_frame hb⟩

/-! ### The run to READY -/

/-- The machine of s runs to t, one step an exchange: these frames are sent and so answered, the exchange tape is left at
`tape`, and nothing but the bring-up registers moves. -/
structure Makes (s t : State) (frames answers : List (List Byte)) (tape : List XferOutcome) : Prop where
  length : frames.length = answers.length
  run : Host.Core.run Sys2Proof.core answers.length s = .next t
  trace : t.trace = s.trace ++ answeredEvents frames answers
  tape : t.oracle.xfer = tape
  frame : SameButBringUp s t

theorem run_add {j k : Nat} {s t u : State} (h : Host.Core.run Sys2Proof.core j s = .next t)
    (h' : Host.Core.run Sys2Proof.core k t = .next u) : Host.Core.run Sys2Proof.core (j + k) s = .next u := by
  induction j generalizing s with
  | zero =>
    obtain rfl : s = t := Host.Outcome.next.inj h
    rwa [Nat.zero_add]
  | succ j ih =>
    obtain ⟨s', e, h⟩ := run_succ_inv h
    rw [Nat.succ_add, run_succ e]
    exact ih h

theorem Makes.trans {s t u : State} {fs as gs bs : List (List Byte)} {tape tape' : List XferOutcome}
    (h : Makes s t fs as tape) (h' : Makes t u gs bs tape') : Makes s u (fs ++ gs) (as ++ bs) tape' where
  length := by rw [List.length_append, List.length_append, h.length, h'.length]
  run := by rw [List.length_append]; exact run_add h.run h'.run
  trace := by rw [h'.trace, h.trace, List.append_assoc, answeredEvents_append h.length]
  tape := h'.tape
  frame := sameButBringUp_trans h.frame h'.frame

theorem Makes.refl {s : State} {tape : List XferOutcome} (h : s.oracle.xfer = tape) : Makes s s [] [] tape where
  length := rfl
  run := rfl
  trace := (List.append_nil _).symm
  tape := h
  frame := rfl

/-- The machine makes steps: its profile is legal and no block reset is asserted. -/
def Runs (s : State) : Prop := profileWf s.profile = true ∧ s.resetIn = false

theorem Runs.of_frame {s t : State} (h : Runs s) (f : SameButBringUp s t) : Runs t := by
  rw [f]
  exact h

/-- One exchange. -/
theorem makes_exchange {s : State} {tx rx : List Byte} {tape : List XferOutcome} (runs : Runs s) (due : Due s tx)
    (hrx : rx.length = tx.length) (ht : s.oracle.xfer = .ok rx :: tape) :
    Makes s (bringUpNext (s.exchanged tx (.ok rx)) (.ok rx)) [tx] [rx] tape where
  length := rfl
  run := run_succ (step_of_due runs.1 runs.2 due (by rw [ht]; rfl) hrx)
  trace := bringUpNext_exchanged_trace due _
  tape := by rw [(initTurn_bringUpNext due _).oracle, Oracle.nextXfer_xfer, ht]; rfl
  frame := bringUpNext_exchanged_frame s tx _

/-- The not-ready answers of either poll, below the bound. -/
theorem makes_notReady {s : State} {tx : List Byte} {tape : List XferOutcome} (runs : Runs s)
    (hp : s.buPhase = .readyPoll ∨ s.buPhase = .idPoll)
    (due : ∀ u : State, u.buPhase = s.buPhase → u.profile = s.profile → Due u tx) {rxs : List (List Byte)}
    (hrxs : ∀ rx ∈ rxs, rx.length = tx.length ∧ statusNotReady (rxByte rx 0) = true)
    (below : s.pollLimit = 0 ∨ s.pollCnt + rxs.length < s.pollLimit.toNat)
    (ht : s.oracle.xfer = rxs.map .ok ++ tape) :
    ∃ t, Makes s t (List.replicate rxs.length tx) rxs tape ∧ t.buPhase = s.buPhase ∧ t.responses = s.responses := by
  induction rxs generalizing s with
  | nil => exact ⟨s, .refl ht, rfl, rfl⟩
  | cons rx rxs ih =>
    obtain ⟨hrx, notReady⟩ := hrxs rx List.mem_cons_self
    rw [List.length_cons] at below
    have first := makes_exchange runs (due s rfl rfl) hrx ht
    rw [bringUpNext_pollsOn hp notReady (below.imp_right fun h => by omega)] at first
    have below' : s.pollLimit = 0 ∨ s.pollCnt + 1 + rxs.length < s.pollLimit.toNat :=
      below.imp_right fun h => by omega
    obtain ⟨t, rest, phase, silent⟩ := ih (s := (s.exchanged tx (.ok rx)).setPollCnt (s.pollCnt + 1))
      (runs.of_frame first.frame) hp due (fun rx h => hrxs rx (List.mem_cons_of_mem _ h)) below' first.tape
    exact ⟨t, first.trans rest, phase, silent⟩

/-- Phase RESET (R172). -/
theorem makes_reset {s : State} (runs : Runs s) (hp : s.buPhase = .reset) {x : Byte} {tape : List XferOutcome}
    (ht : s.oracle.xfer = .ok [x] :: tape) :
    ∃ t, Makes s t [[s.profile.strobes.reset]] [[x]] tape ∧ t.buPhase = .readyPoll ∧ t.pollCnt = 0 ∧
      t.responses = s.responses := by
  have exchange := makes_exchange (rx := [x]) runs (.reset hp) rfl ht
  rw [bringUpNext_reset (s := s.exchanged _ _) [x] hp] at exchange
  exact ⟨_, exchange, rfl, rfl, rfl⟩

/-- Phase READY_POLL: not-ready answers below the bound, and a ready one (R173). -/
theorem makes_readyPolls {s : State} (runs : Runs s) (hp : s.buPhase = .readyPoll) (h0 : s.pollCnt = 0) {polls : List Byte}
    {p : Byte} {tape : List XferOutcome} (notReady : ∀ q ∈ polls, q.getLsbD 7 = true) (ready : p.getLsbD 7 = false)
    (below : s.pollLimit = 0 ∨ polls.length < s.pollLimit.toNat)
    (ht : s.oracle.xfer = (polls.map (fun q => [q]) ++ [[p]]).map .ok ++ tape) :
    ∃ t, Makes s t (List.replicate (polls.length + 1) [0x00]) (polls.map (fun q => [q]) ++ [[p]]) tape ∧
      t.buPhase = .idPoll ∧ t.pollCnt = 0 ∧ t.responses = s.responses := by
  obtain ⟨u, loop, phase, silent⟩ := makes_notReady (tx := [0x00]) (rxs := polls.map fun q => [q]) (tape := .ok [p] :: tape)
    runs (.inl hp) (fun u hu _ => .readyPoll (hu.trans hp))
    (List.forall_mem_map.2 fun q hq => ⟨rfl, (status_head _ _).trans (notReady q hq)⟩)
    (by simpa [h0] using below) (by simpa using ht)
  have last := makes_exchange (rx := [p]) (runs.of_frame loop.frame) (.readyPoll (phase.trans hp)) rfl loop.tape
  rw [bringUpNext_polled (phase.trans hp) ((status_head _ _).trans ready)] at last
  rw [List.replicate_succ', ← List.length_map (as := polls) fun q => [q]]
  exact ⟨_, loop.trans last, rfl, rfl, silent⟩

/-- Phase ID_POLL: not-ready answers below the bound, and a ready one with the expected identity (R174, R175). -/
theorem makes_identityReads {s : State} (runs : Runs s) (hp : s.buPhase = .idPoll) (h0 : s.pollCnt = 0)
    {reads : List (Byte × Byte)} {sb : Byte} {tape : List XferOutcome} (notReady : ∀ q ∈ reads, q.1.getLsbD 7 = true)
    (ready : sb.getLsbD 7 = false) (below : s.pollLimit = 0 ∨ reads.length < s.pollLimit.toNat)
    (ht : s.oracle.xfer = (reads.map (fun q => [q.1, q.2]) ++ [[sb, 0x80]]).map .ok ++ tape) :
    ∃ t, Makes s t (List.replicate (reads.length + 1) [0xC0 ||| s.profile.idRegAddr.setWidth 8, 0x00])
        (reads.map (fun q => [q.1, q.2]) ++ [[sb, 0x80]]) tape ∧
      t.buPhase = .config ∧ t.cfgIdx = 0 ∧ t.responses = s.responses := by
  have due : ∀ u : State, u.buPhase = s.buPhase → u.profile = s.profile →
      Due u [0xC0 ||| s.profile.idRegAddr.setWidth 8, 0x00] := fun u hu hprofile => by
    rw [← hprofile]
    exact .idPoll (hu.trans hp)
  have loopAnswers : ∀ rx ∈ reads.map fun q => [q.1, q.2], rx.length = 2 ∧ statusNotReady (rxByte rx 0) = true :=
    List.forall_mem_map.2 fun q hq => ⟨rfl, (status_head q.1 [q.2]).trans (notReady q hq)⟩
  obtain ⟨u, loop, phase, silent⟩ := makes_notReady (tx := [0xC0 ||| s.profile.idRegAddr.setWidth 8, 0x00])
    (rxs := reads.map fun q => [q.1, q.2]) (tape := .ok [sb, 0x80] :: tape) runs (.inr hp) due
    loopAnswers (by simpa [h0] using below) (by simpa using ht)
  have last := makes_exchange (rx := [sb, 0x80]) (runs.of_frame loop.frame)
    (due u phase (profile_of_sameButBringUp loop.frame)) (Eq.refl 2) loop.tape
  rw [bringUpNext_identified (phase.trans hp) ((status_head _ _).trans ready) rfl] at last
  rw [List.replicate_succ', ← List.length_map (as := reads) fun q => [q.1, q.2]]
  exact ⟨_, loop.trans last, rfl, rfl, silent⟩

/-- The transactions that are still due from phase CONFIG on: the rest of the table, and the rest of the settle strobes. -/
def framesLeft (s : State) : List (List Byte) :=
  match s.buPhase with
  | .config => (s.profile.configTable.drop s.cfgIdx).map (fun e => [e.1.setWidth 8, e.2]) ++
      (settleCodes s.profile).map fun b => [b]
  | .settle => ((settleCodes s.profile).drop s.settleIdx).map fun b => [b]
  | _ => []

theorem framesLeft_config {s : State} (hp : s.buPhase = .config) :
    framesLeft s = (s.profile.configTable.drop s.cfgIdx).map (fun e => [e.1.setWidth 8, e.2]) ++
      (settleCodes s.profile).map fun b => [b] := by
  simp only [framesLeft, hp]

theorem framesLeft_settle {s : State} (hp : s.buPhase = .settle) :
    framesLeft s = ((settleCodes s.profile).drop s.settleIdx).map fun b => [b] := by
  simp only [framesLeft, hp]

/-- An INIT in phase CONFIG or SETTLE, its index in range. -/
def InTail (s : State) : Prop :=
  (s.buPhase = .config ∧ s.cfgIdx < s.profile.configTable.length) ∨
  (s.buPhase = .settle ∧ s.settleIdx < (settleCodes s.profile).length)

section Next

variable {s : State}

theorem nextEntry_of_lt (h : s.cfgIdx + 1 < s.profile.configTable.length) :
    nextEntry s = s.setCfgIdx (s.cfgIdx + 1) := if_pos h

theorem nextEntry_of_not_lt (h : ¬ s.cfgIdx + 1 < s.profile.configTable.length) :
    nextEntry s = startSettle (s.setCfgIdx (s.cfgIdx + 1)) := if_neg h

theorem nextSettle_of_lt (h : s.settleIdx + 1 < (settleCodes s.profile).length) :
    nextSettle s = s.setSettleIdx (s.settleIdx + 1) := if_pos h

theorem nextSettle_of_not_lt (h : ¬ s.settleIdx + 1 < (settleCodes s.profile).length) :
    nextSettle s = completeInit (s.setSettleIdx (s.settleIdx + 1)) := if_neg h

end Next

/-- An answered exchange from phase CONFIG on is the first of those left; the last one completes INIT (R176, R177). -/
theorem inTail_turn {s : State} (h : InTail s) :
    ∃ tx rest, framesLeft s = tx :: rest ∧ Due s tx ∧ ∀ rx, ∃ t, bringUpNext (s.exchanged tx (.ok rx)) (.ok rx) = t ∧
      ((InTail t ∧ framesLeft t = rest ∧ t.responses = s.responses) ∨
       (rest = [] ∧ t.buPhase = .ready ∧ t.responses = s.responses ++ [[0x00]])) := by
  obtain ⟨hp, hidx⟩ | ⟨hp, hidx⟩ := h
  · rw [framesLeft_config hp, List.drop_eq_getElem_cons hidx]
    refine ⟨_, _, rfl, .config hp _ (List.getElem?_eq_getElem hidx), fun rx => ⟨_, rfl, .inl ?_⟩⟩
    rw [bringUpNext_config (s := s.exchanged _ _) rx hp]
    by_cases hlt : s.cfgIdx + 1 < s.profile.configTable.length
    · rw [nextEntry_of_lt (s := s.exchanged _ _) hlt]
      exact ⟨.inl ⟨hp, hlt⟩, framesLeft_config hp, rfl⟩
    · rw [nextEntry_of_not_lt (s := s.exchanged _ _) hlt, List.drop_eq_nil_of_le (Nat.le_of_not_lt hlt)]
      exact ⟨.inr ⟨rfl, Nat.zero_lt_succ 3⟩, framesLeft_settle rfl, rfl⟩
  · rw [framesLeft_settle hp, List.drop_eq_getElem_cons hidx]
    refine ⟨_, _, rfl, .settle hp _ (List.getElem?_eq_getElem hidx), fun rx => ⟨_, rfl, ?_⟩⟩
    rw [bringUpNext_settle (s := s.exchanged _ _) rx hp]
    by_cases hlt : s.settleIdx + 1 < (settleCodes s.profile).length
    · rw [nextSettle_of_lt (s := s.exchanged _ _) hlt]
      exact .inl ⟨.inr ⟨hp, hlt⟩, framesLeft_settle hp, rfl⟩
    · rw [nextSettle_of_not_lt (s := s.exchanged _ _) hlt, List.drop_eq_nil_of_le (Nat.le_of_not_lt hlt)]
      exact .inr ⟨rfl, rfl, rfl⟩

/-- Phases CONFIG and SETTLE with every exchange answered. -/
theorem makes_tail {s : State} (runs : Runs s) (h : InTail s) {rxs : List (List Byte)} {tape : List XferOutcome}
    (hlen : rxs.map List.length = (framesLeft s).map List.length) (ht : s.oracle.xfer = rxs.map .ok ++ tape) :
    ∃ t, Makes s t (framesLeft s) rxs tape ∧ t.buPhase = .ready ∧ t.responses = s.responses ++ [[0x00]] := by
  induction rxs generalizing s with
  | nil =>
    obtain ⟨tx, rest, left, -⟩ := inTail_turn h
    rw [left] at hlen
    cases hlen
  | cons rx rxs ih =>
    obtain ⟨tx, rest, left, due, turn⟩ := inTail_turn h
    rw [left, List.map_cons, List.map_cons, List.cons.injEq] at hlen
    obtain ⟨t, ht', outcome⟩ := turn rx
    have first := makes_exchange runs due hlen.1 ht
    rw [ht'] at first
    rw [left]
    obtain ⟨tail, leftT, silent⟩ | ⟨rfl, ready, ok⟩ := outcome
    · obtain ⟨u, rest', ready, ok⟩ := ih (runs.of_frame first.frame) tail (leftT ▸ hlen.2) first.tape
      rw [leftT] at rest'
      exact ⟨u, first.trans rest', ready, silent ▸ ok⟩
    · obtain rfl : rxs = [] := List.map_eq_nil_iff.1 hlen.2
      exact ⟨t, first, ready, ok⟩

/-- The lengths of n lists of m bytes. -/
theorem map_length_eq_replicate {l : List (List Byte)} {n m : Nat} (hl : l.length = n) (h : ∀ w ∈ l, w.length = m) :
    l.map List.length = List.replicate n m :=
  List.eq_replicate_iff.2 ⟨by rw [List.length_map, hl], List.forall_mem_map.2 h⟩

/-- Phases CONFIG and SETTLE from the first entry on: 33 writes and 4 strobes (R176, R177). -/
theorem makes_writesAndSettle {s : State} (runs : Runs s) (hp : s.buPhase = .config) (h0 : s.cfgIdx = 0)
    {writes settles : List (List Byte)} {tape : List XferOutcome} (hwrites : writes.length = 33)
    (hwrite : ∀ w ∈ writes, w.length = 2) (hsettles : settles.length = 4) (hsettle : ∀ w ∈ settles, w.length = 1)
    (ht : s.oracle.xfer = (writes ++ settles).map .ok ++ tape) :
    ∃ t, Makes s t (s.profile.configTable.map (fun e => [e.1.setWidth 8, e.2]) ++
        (settleCodes s.profile).map fun b => [b]) (writes ++ settles) tape ∧
      t.buPhase = .ready ∧ t.responses = s.responses ++ [[0x00]] := by
  have hl := (profileWf_iff_legalProfile.1 runs.1).configTable_length
  have left := framesLeft_config hp
  rw [h0, List.drop_zero] at left
  have tableLengths : (s.profile.configTable.map fun e => ([e.1.setWidth 8, e.2] : List Byte)).map List.length =
      List.replicate 33 2 :=
    map_length_eq_replicate ((List.length_map _).trans hl) (List.forall_mem_map.2 fun _ _ => rfl)
  have lengths : (writes ++ settles).map List.length = (framesLeft s).map List.length := by
    rw [left, List.map_append, List.map_append, map_length_eq_replicate hwrites hwrite,
      map_length_eq_replicate hsettles hsettle, tableLengths]
    rfl
  rw [← left]
  exact makes_tail runs (.inl ⟨hp, by omega⟩) lengths ht

/-- From the RESET strobe to READY: the phases one after the other (R172 to R178). -/
theorem makes_bringUp {s : State} (runs : Runs s) (hp : s.buPhase = .reset) {x p sb : Byte} {polls : List Byte}
    {reads : List (Byte × Byte)} {writes settles : List (List Byte)} {tape : List XferOutcome}
    (notReadyP : ∀ q ∈ polls, q.getLsbD 7 = true) (readyP : p.getLsbD 7 = false)
    (notReadyR : ∀ q ∈ reads, q.1.getLsbD 7 = true) (readyR : sb.getLsbD 7 = false)
    (hwrites : writes.length = 33) (hwrite : ∀ w ∈ writes, w.length = 2)
    (hsettles : settles.length = 4) (hsettle : ∀ w ∈ settles, w.length = 1)
    (below : s.pollLimit = 0 ∨ (polls.length < s.pollLimit.toNat ∧ reads.length < s.pollLimit.toNat))
    (ht : s.oracle.xfer = .ok [x] :: ((polls.map (fun q => [q]) ++ [[p]]).map .ok ++
      ((reads.map (fun q => [q.1, q.2]) ++ [[sb, 0x80]]).map .ok ++ ((writes ++ settles).map .ok ++ tape)))) :
    ∃ t, Makes s t
        ([[s.profile.strobes.reset]] ++ List.replicate (polls.length + 1) [0x00] ++
          List.replicate (reads.length + 1) [0xC0 ||| s.profile.idRegAddr.setWidth 8, 0x00] ++
          (s.profile.configTable.map (fun e => [e.1.setWidth 8, e.2]) ++ (settleCodes s.profile).map fun b => [b]))
        ([[x]] ++ (polls.map (fun q => [q]) ++ [[p]]) ++ (reads.map (fun q => [q.1, q.2]) ++ [[sb, 0x80]]) ++
          (writes ++ settles)) tape ∧
      t.buPhase = .ready ∧ t.responses = s.responses ++ [[0x00]] := by
  obtain ⟨s1, m1, p1, c1, r1⟩ := makes_reset runs hp ht
  have limit1 : s1.pollLimit = s.pollLimit := by rw [m1.frame]
  obtain ⟨s2, m2, p2, c2, r2⟩ := makes_readyPolls (runs.of_frame m1.frame) p1 c1 notReadyP readyP
    (limit1 ▸ below.imp_right fun h => h.1) m1.tape
  have m12 := m1.trans m2
  have limit2 : s2.pollLimit = s.pollLimit := by rw [m12.frame]
  obtain ⟨s3, m3, p3, c3, r3⟩ := makes_identityReads (runs.of_frame m12.frame) p2 c2 notReadyR readyR
    (limit2 ▸ below.imp_right fun h => h.2) m2.tape
  have m123 := m12.trans m3
  obtain ⟨s4, m4, p4, r4⟩ := makes_writesAndSettle (runs.of_frame m123.frame) p3 c3 hwrites hwrite hsettles hsettle m3.tape
  have whole := m123.trans m4
  rw [profile_of_sameButBringUp m12.frame, profile_of_sameButBringUp m123.frame] at whole
  exact ⟨s4, whole, p4, by rw [r4, r3, r2, r1]⟩

/-- Settles O19: the XInit of the first step, and then the run that `makes_bringUp` describes. -/
theorem initRunsToReady : Obligations.InitRunsToReady := by
  intro s x polls p reads sb writes settles tape wf hr xok notReadyP readyP notReadyR readyR hwrites hwrite hsettles hsettle
    below answers frames ht
  obtain ⟨o, ho, e⟩ := execInit_cases s
  obtain rfl := ho _ xok
  obtain ⟨t, makes, ready, ok⟩ := makes_bringUp (s := (s.afterEvents [.xinit .ok] s.oracle.nextXInit).setPhase .reset)
    (x := x) ⟨wf, hr⟩ rfl notReadyP readyP notReadyR readyR hwrites hwrite hsettles hsettle below (tape := tape)
    (by simpa [answers] using ht)
  have whole : Makes ((s.afterEvents [.xinit .ok] s.oracle.nextXInit).setPhase .reset) t frames answers tape := by
    simpa [frames, answers, settleCodes] using makes
  have first : SameButBringUp s ((s.afterEvents [.xinit .ok] s.oracle.nextXInit).setPhase .reset) := rfl
  have trace := whole.trace
  rw [State.setPhase_trace, State.afterEvents_trace, List.append_assoc] at trace
  exact ⟨_, t, e, whole.run, ready, ok, trace, sameButBringUp_trans first whole.frame⟩

end Sys2Proof.Machine
end

section
/-! SUPPORT. The packet codec and the lamp session operations (spec/42_packet_codec.md R210 to R222): BUILD, the sends, LEARN,
and the frame checks that PARSE and RECV_PACKET share. -/

namespace Sys2Proof.Machine

open Sys2Proof.Safety

/-! ### BUILD -/

theorem exec_build_of_illegal (c : Color) (s : State) {cmd cf : Byte} (illegal : ¬ LegalOperands cmd cf) :
    exec (.build cmd cf c) s = .next (s.respond .illegalCommand []) := by
  rw [← operandsRefused_eq_false_iff, Bool.not_eq_false] at illegal
  rw [exec, execBuild, build, if_pos illegal]
  rfl

theorem exec_build_of_unwritten (c : Color) {s : State} {cmd cf bit : Byte} (legal : LegalOperands cmd cf)
    (unwritten : firstUnwritten s cf = some bit) :
    ∃ b, faultMask b = bit ∧ exec (.build cmd cf c) s = .next ((s.setFaultBit b).respond .fault []) := by
  obtain ⟨b, hb, mask⟩ := buildPacket_of_firstUnwritten (cmd := cmd) (c := c) legal.2 unwritten
  refine ⟨b, mask, ?_⟩
  rw [exec, execBuild, build, (operandsRefused_eq_false_iff cmd cf).2 legal, hb]
  rfl

theorem exec_build_of_written (c : Color) {s : State} {cmd cf : Byte} (legal : LegalOperands cmd cf)
    (written : firstUnwritten s cf = none) :
    exec (.build cmd cf c) s = .next (s.respond .ok (sessionPacket s cmd cf c)) := by
  rw [exec, execBuild, build, (operandsRefused_eq_false_iff cmd cf).2 legal, buildPacket_of_written cmd c legal.2 written]
  rfl

/-- Settles O29: the operands are checked first, then the written-flags, and only then is the packet made. -/
theorem buildReturnsPacket : Obligations.BuildReturnsPacket := by
  refine fun s cmd cf c rest => ⟨decode_of_operands .build rfl, exec_build_of_illegal c s, fun legal bit unwritten => ?_,
    exec_build_of_written c⟩
  obtain ⟨b, rfl, e⟩ := exec_build_of_unwritten c legal unwritten
  exact e

/-! ### The sends -/

/-- The sequence step writes SEQ alone, and keeps it only in strict mode after a result other than OK (R215). -/
theorem seqAdvance_eq (r : ResultCode) (s : State) :
    seqAdvance r s =
      { s with seq := if s.ctrl.getLsbD 0 = true ∧ resultByte r ≠ 0x00 then s.seq else s.seq + 1 } := by
  rw [seqAdvance, strictSeq]
  by_cases strict : s.ctrl.getLsbD 0 = true
  · by_cases ok : r = .ok
    · subst ok
      rw [if_pos strict, if_pos rfl, if_neg fun h => h.2 rfl]
      rfl
    · rw [if_pos strict, if_neg ok, if_pos ⟨strict, resultByte_ne_zero ok⟩]
  · rw [if_neg strict, if_neg fun h => strict h.1]
    rfl

/-- Settles O31: `exec_send_cases` gives the FIFO_WRITE of the packet, and `seqAdvance_eq` the sequence step after it. -/
theorem sendWritesPacketAndAdvances : Obligations.SendWritesPacketAndAdvances := by
  intro s i cmd cf c hi legal written
  obtain ⟨r, evs, o, run, e⟩ := exec_send_cases hi legal written
  rw [seqAdvance_eq] at e
  exact ⟨_, resultByte r, evs, e, run, rfl, rfl, rfl⟩

/-! ### LEARN -/

/-- Settles O32: LEARN looks at neither its operands nor the state. -/
theorem learnNotImplemented : Obligations.LearnNotImplemented :=
  ⟨fun _ _ _ _ _ _ => ⟨_, toNat_fromLe32 .., decode_of_operands .learn rfl⟩, fun _ _ _ => rfl⟩

/-! ### The frame checks (R220, R221) -/

section Frame

variable {b : List Byte} (d : List Byte) (s : State)

theorem parseFrame_of_length_ne (hl : b.length ≠ 15) : parseFrame b d s = raiseError .frameLength d s := if_pos hl

theorem parseFrame_of_preamble_ne (hl : b.length = 15) (hp : b[0]? ≠ some 0x0E) :
    parseFrame b d s = raiseError .framePreamble d s := by
  rw [← List.head?_eq_getElem?] at hp
  rw [parseFrame, packetLength, preamble, if_neg (not_not.2 hl), if_pos hp]

theorem parseFrame_of_frame (hl : b.length = 15) (hp : b[0]? = some 0x0E) :
    parseFrame b d s = returnOk (b.drop 1) s := by
  rw [← List.head?_eq_getElem?] at hp
  rw [parseFrame, packetLength, preamble, if_neg (not_not.2 hl), if_neg (not_not.2 hp)]

end Frame

/-! ### PARSE -/

theorem exec_parse (b : List Byte) (s : State) : exec (.parse b) s = .next (answer (parseFrame b [] s)) := rfl

theorem exec_parse_of_frame {b : List Byte} (s : State) (hl : b.length = 15) (hp : b[0]? = some 0x0E) :
    exec (.parse b) s = .next (s.respond .ok (b.drop 1)) := by
  rw [exec_parse, parseFrame_of_frame [] s hl hp]
  rfl

/-- Settles O33: one case for each outcome of the frame checks. -/
theorem parseChecksFrame : Obligations.ParseChecksFrame := by
  refine fun s b rest => ⟨fun h => decode_of_operands .parse (decodeOperands_counted rest h).2, fun hl => ?_, ?_⟩
  · rw [exec_parse, parseFrame_of_length_ne [] s hl]
    rfl
  · rintro x fields rfl hf
    have hl : (x :: fields).length = 15 := congrArg (· + 1) hf
    by_cases hx : x = 0x0E
    · rw [if_pos hx]
      exact exec_parse_of_frame s hl (congrArg some hx)
    · rw [if_neg hx, exec_parse, parseFrame_of_preamble_ne [] s hl (mt Option.some.inj hx)]
      rfl

theorem sessionPacket_length (s : State) (cmd cf : Byte) (c : Color) : (sessionPacket s cmd cf c).length = 15 := by
  unfold sessionPacket
  split <;> rfl

/-- Settles O34: BUILD answers the session's packet, whose length and preamble pass PARSE's checks. -/
theorem parseInvertsBuild : Obligations.ParseInvertsBuild := fun s u cmd cf c legal written =>
  ⟨sessionPacket s cmd cf c, exec_build_of_written c legal written, sessionPacket_length s cmd cf c, rfl, rfl, rfl, rfl,
    exec_parse_of_frame u (sessionPacket_length s cmd cf c) rfl⟩

/-! ### RECV_PACKET -/

/-- Everything RECV_PACKET does: a run of FIFO_READ, and then its error code or the frame checks of the bytes read, whose
errors give back the count byte and those bytes (R221). -/
theorem exec_recvPacket_cases (s : State) :
    ∃ r evs o, FifoReadRun s r evs ∧
      ((∃ code, r = .error (resultByte code) ∧ exec .recvPacket s = .next ((s.afterEvents evs o).respond code [])) ∨
       ∃ p, r = .ok p ∧
        exec .recvPacket s = .next (answer (parseFrame p (BitVec.ofNat 8 p.length :: p) (s.afterEvents evs o)))) := by
  obtain ⟨r, evs, o, run, count, e⟩ := fifoRead_cases s
  refine ⟨_, evs, o, run, ?_⟩
  cases r with
  | error code =>
    refine .inl ⟨code, rfl, ?_⟩
    rw [exec, execRecvPacket, recvPacket, e]
    rfl
  | ok q =>
    obtain ⟨n, p⟩ := q
    obtain ⟨rfl, -⟩ := count n p rfl
    refine .inr ⟨p, rfl, ?_⟩
    rw [exec, execRecvPacket, recvPacket, e]

/-- Settles O35: `exec_recvPacket_cases`, with one case for each outcome of the frame checks. -/
theorem recvPacketFramesFifoRead : Obligations.RecvPacketFramesFifoRead := by
  refine fun s rest => ⟨decode_of_operands .recvPacket rfl, ?_⟩
  obtain ⟨r, evs, o, run, ⟨code, rfl, e⟩ | ⟨p, rfl, e⟩⟩ := exec_recvPacket_cases s
  · exact ⟨_, _, evs, e, run, rfl, rfl, rfl⟩
  · refine ⟨_, _, evs, e, run, ?_⟩
    by_cases hl : p.length = 15
    · by_cases hp : p[0]? = some 0x0E
      · rw [parseFrame_of_frame _ _ hl hp]
        exact ⟨rfl, rfl, by simp only [hl, hp]; rfl⟩
      · rw [parseFrame_of_preamble_ne _ _ hl hp]
        exact ⟨rfl, rfl, by simp only [hl, hp]; rfl⟩
    · rw [parseFrame_of_length_ne _ _ hl]
      exact ⟨rfl, rfl, by simp only [ne_eq, hl]; rfl⟩

end Sys2Proof.Machine
end

section
/-! SUPPORT. The saturation of the colour converter (spec/43_color.md R267, R271, R272): each binary64 step is the nearest
number, and the byte is nearest the exact value in both tie modes. -/

namespace Sys2Proof.Machine

open Sys2Proof.Safety

/-! ### The nearest binary64 number (R272) -/

theorem twoPow_eq_zpow (e : ℤ) : twoPow e = (2 : ℚ) ^ e := by
  cases e with
  | ofNat n => simp [twoPow]
  | negSucc n => simp [twoPow, zpow_negSucc]

theorem floorLog2_spec {q : ℚ} (hq : 0 < q) : (2 : ℚ) ^ floorLog2 q ≤ q ∧ q < 2 ^ (floorLog2 q + 1) := by
  have hnum : q.num.natAbs ≠ 0 := by simpa using hq.ne'
  have hval : (q.num.natAbs : ℚ) = q * q.den := by
    rw [Rat.mul_den_eq_num, Nat.cast_natAbs, abs_of_pos (Rat.num_pos.2 hq)]
  have hden : (0 : ℚ) < q.den := mod_cast q.den_pos
  have numLe : (2 : ℚ) ^ q.num.natAbs.log2 ≤ q * q.den := hval ▸ mod_cast Nat.log2_self_le hnum
  have numLt : q * q.den < (2 : ℚ) ^ (q.num.natAbs.log2 + 1) := hval ▸ mod_cast Nat.lt_log2_self
  have denLe : (2 : ℚ) ^ q.den.log2 ≤ q.den := mod_cast Nat.log2_self_le q.den_nz
  have denLt : (q.den : ℚ) < 2 ^ (q.den.log2 + 1) := mod_cast Nat.lt_log2_self
  generalize hd : (q.num.natAbs.log2 : ℤ) - q.den.log2 = d
  have above : q < 2 ^ (d + 1) := by
    have split : (2 : ℚ) ^ (q.num.natAbs.log2 + 1) = 2 ^ (d + 1) * 2 ^ q.den.log2 := by
      rw [← zpow_natCast, ← zpow_natCast, ← zpow_add₀ two_ne_zero]
      congr 1; push_cast; omega
    refine lt_of_mul_lt_mul_right (numLt.trans_le ?_) hden.le
    rw [split]
    gcongr
  have below : (2 : ℚ) ^ (d - 1) ≤ q := by
    have split : (2 : ℚ) ^ q.num.natAbs.log2 = 2 ^ (d - 1) * 2 ^ (q.den.log2 + 1) := by
      rw [← zpow_natCast, ← zpow_natCast, ← zpow_add₀ two_ne_zero]
      congr 1; push_cast; omega
    refine le_of_mul_le_mul_right (le_trans ?_ numLe) hden
    rw [split]
    gcongr
  rw [floorLog2, twoPow_eq_zpow, hd]
  split
  · exact ⟨‹_›, above⟩
  · rw [sub_add_cancel]
    exact ⟨below, not_le.1 ‹_›⟩

theorem roundHalfEven_nearest (q : ℚ) :
    |q - roundHalfEven q| ≤ 1 / 2 ∧ (|q - roundHalfEven q| = 1 / 2 → roundHalfEven q % 2 = 0) := by
  have hf : q.floor = ⌊q⌋ := rfl
  have lo := Int.floor_le q
  have hi := Int.lt_floor_add_one q
  unfold roundHalfEven
  rw [hf]
  split
  case isTrue h =>
    rw [abs_of_nonneg (sub_nonneg.2 lo)]
    exact ⟨h.le, fun e => absurd e h.ne⟩
  case isFalse h =>
    have up : |q - ((⌊q⌋ + 1 : ℤ) : ℚ)| = 1 - (q - ⌊q⌋) := by
      rw [abs_of_nonpos] <;> push_cast <;> linarith
    split
    case isTrue h' =>
      rw [up]
      exact ⟨by linarith, fun e => by linarith⟩
    case isFalse h' =>
      split
      case isTrue even =>
        rw [abs_of_nonneg (sub_nonneg.2 lo)]
        exact ⟨not_lt.1 h', fun _ => even⟩
      case isFalse odd =>
        rw [up]
        exact ⟨by linarith, fun _ => by omega⟩

@[simp] theorem binary64_zero : binary64 0 = 0 := rfl

/-- Multiplying by 2^(52-e), with e the exponent of q, turns the rounding of q into that of `roundHalfEven`. -/
theorem binary64_nearest {q : ℚ} (low : 2 ^ (-1022 : ℤ) ≤ q) (high : q < 2 ^ (1023 : ℤ)) :
    NearestBinary64 q (binary64 q) := by
  have pos : 0 < q := lt_of_lt_of_le (by positivity) low
  obtain ⟨le, lt⟩ := floorLog2_spec pos
  rw [binary64, if_neg pos.ne', twoPow_eq_zpow, twoPow_eq_zpow]
  generalize floorLog2 q = e at le lt
  obtain ⟨near, even⟩ := roundHalfEven_nearest (q * 2 ^ (52 - e))
  generalize roundHalfEven (q * 2 ^ (52 - e)) = M at near even
  have error : |q - M * 2 ^ (e - 52)| = |q * 2 ^ (52 - e) - M| * 2 ^ (e - 52) := by
    have unit : (2 : ℚ) ^ (52 - e) * 2 ^ (e - 52) = 1 := by
      rw [← zpow_add₀ two_ne_zero, show 52 - e + (e - 52) = 0 by ring, zpow_zero]
    have pos : (0 : ℚ) < 2 ^ (e - 52) := by positivity
    rw [← abs_of_pos pos, ← abs_mul, abs_of_pos pos, sub_mul, mul_assoc, unit, mul_one]
  have half : (2 : ℚ) ^ (e - 53) = 1 / 2 * 2 ^ (e - 52) := by
    rw [show e - 52 = e - 53 + 1 by ring, zpow_add_one₀ two_ne_zero]
    ring
  have scale : (0 : ℚ) < 2 ^ (e - 52) := by positivity
  refine .inr ⟨e, M, ?_, ?_, le, lt, rfl, ?_, ?_⟩
  · have := (zpow_lt_zpow_iff_right₀ (one_lt_two (α := ℚ))).1 (low.trans_lt lt)
    omega
  · have := (zpow_lt_zpow_iff_right₀ (one_lt_two (α := ℚ))).1 (le.trans_lt high)
    omega
  · rw [error, half]
    exact mul_le_mul_of_nonneg_right near scale.le
  · rw [error, half]
    exact fun h => even (mul_right_cancel₀ scale.ne' h)

theorem abs_sub_le_of_nearestBinary64 {q x : ℚ} (h : NearestBinary64 q x) : |q - x| ≤ q * 2 ^ (-53 : ℤ) := by
  obtain ⟨rfl, rfl⟩ | ⟨e, M, -, -, le, -, -, near, -⟩ := h
  · simp
  · calc |q - x| ≤ 2 ^ e * 2 ^ (-53 : ℤ) := by rwa [← zpow_add₀ two_ne_zero]
      _ ≤ q * 2 ^ (-53 : ℤ) := by gcongr

/-! ### The smallest of three -/

theorem min3_sub_min3_le {x y z x' y' z' δ : ℚ} (hx : |x - x'| ≤ δ) (hy : |y - y'| ≤ δ) (hz : |z - z'| ≤ δ) :
    |min3 x y z - min3 x' y' z'| ≤ δ :=
  (abs_min_sub_min_le_max ..).trans (max_le hx ((abs_min_sub_min_le_max ..).trans (max_le hy hz)))

theorem min3_ratio (r g b n : ℕ) : min3 (ratio r n) (ratio g n) (ratio b n) = ratio (min r (min g b)) n := by
  simp only [min3, ratio, min_div_div_right (Nat.cast_nonneg (α := ℚ) n), Nat.cast_min]

theorem min3_induction {p : ℚ → Prop} {x y z : ℚ} (hx : p x) (hy : p y) (hz : p z) : p (min3 x y z) :=
  min_rec' p hx (min_rec' p hy hz)

/-! ### Values far inside the normal range -/

/-- q is 0 or far inside binary64's normal range, as is every value the saturation's evaluation rounds (R272). -/
def SatRange (q : ℚ) : Prop := q = 0 ∨ 1 / 1000 ≤ q ∧ q ≤ 256

theorem SatRange.nearest {q : ℚ} (h : SatRange q) : NearestBinary64 q (binary64 q) := by
  obtain rfl | ⟨low, high⟩ := h
  · exact .inl ⟨rfl, rfl⟩
  · refine binary64_nearest ?_ ?_
    · calc (2 : ℚ) ^ (-1022 : ℤ) ≤ 2 ^ (-10 : ℤ) := zpow_le_zpow_right₀ one_le_two (by decide)
        _ ≤ q := by norm_num; linarith
    · calc q ≤ 2 ^ (8 : ℤ) := by norm_num; exact high
        _ < 2 ^ (1023 : ℤ) := zpow_lt_zpow_right₀ one_lt_two (by decide)

theorem SatRange.abs_sub_le {q : ℚ} (h : SatRange q) : |binary64 q - q| ≤ 1 / 10 ^ 9 := by
  have high : q ≤ 256 := by
    obtain rfl | ⟨-, high⟩ := h
    · norm_num
    · exact high
  calc |binary64 q - q| = |q - binary64 q| := abs_sub_comm ..
    _ ≤ q * 2 ^ (-53 : ℤ) := abs_sub_le_of_nearestBinary64 h.nearest
    _ ≤ 256 * 2 ^ (-53 : ℤ) := by gcongr
    _ ≤ 1 / 10 ^ 9 := by norm_num

theorem ratio_nonneg (x n : ℕ) : 0 ≤ ratio x n := by
  unfold ratio
  positivity

theorem satRange_ratio {x n : ℕ} (hx : x ≤ n) (hn : n ≤ 765) : SatRange (ratio x n) := by
  obtain rfl | pos := x.eq_zero_or_pos
  · exact .inl (by simp [ratio])
  · have npos : (0 : ℚ) < n := mod_cast pos.trans_le hx
    have one : (1 : ℚ) ≤ x := mod_cast pos
    have le : (x : ℚ) ≤ n := mod_cast hx
    have n765 : (n : ℚ) ≤ 765 := mod_cast hn
    refine .inr ⟨?_, ?_⟩
    · rw [ratio, le_div_iff₀ npos]; linarith
    · rw [ratio, div_le_iff₀ npos]; linarith

/-! ### The saturation's evaluation, step by step (R272) -/

/-- `min(rp, gp, bp)`. -/
def satMin (r g b : ℕ) : ℚ :=
  min3 (binary64 (ratio r (r + g + b))) (binary64 (ratio g (r + g + b))) (binary64 (ratio b (r + g + b)))

/-- `3*min(rp,gp,bp)`, rounded. -/
def satTriple (r g b : ℕ) : ℚ := binary64 (3 * satMin r g b)

/-- `1 - 3*min(rp,gp,bp)`, rounded. -/
def satUnit (r g b : ℕ) : ℚ := binary64 (1 - satTriple r g b)

/-- `(1 - 3*min(rp,gp,bp))*255`, rounded. -/
def satScaled (r g b : ℕ) : ℚ := binary64 (satUnit r g b * 255)

theorem satBinary64_eq (r g b : ℕ) : satBinary64 r g b = ⌊satScaled r g b + 1 / 2⌋.toNat := rfl

/-- `S*` (R267). -/
def satExact (r g b : ℕ) : ℚ := 255 * satSpan r g b / (r + g + b : ℕ)

section Steps

variable {r g b : ℕ}

theorem satExact_eq (pos : 0 < r + g + b) : satExact r g b = (1 - 3 * ratio (min r (min g b)) (r + g + b)) * 255 := by
  have hm : 3 * min r (min g b) ≤ r + g + b := by omega
  have hn : ((r + g + b : ℕ) : ℚ) ≠ 0 := mod_cast pos.ne'
  rw [satExact, satSpan, ratio, Nat.cast_sub hm]
  field_simp
  push_cast
  ring

variable (le : r + g + b ≤ 765) (grey : ¬ (r = g ∧ g = b))
include le

theorem satMin_zero_or_ge : satMin r g b = 0 ∨ 1 / 1001 ≤ satMin r g b := by
  have rounded {x : ℕ} (hx : x ≤ r + g + b) :
      binary64 (ratio x (r + g + b)) = 0 ∨ 1 / 1001 ≤ binary64 (ratio x (r + g + b)) := by
    have range := satRange_ratio hx le
    have near := abs_le.1 range.abs_sub_le
    obtain zero | ⟨low, -⟩ := range
    · exact .inl (by rw [zero, binary64_zero])
    · exact .inr (by linarith)
  exact min3_induction (p := fun q => q = 0 ∨ 1 / 1001 ≤ q) (rounded (by omega)) (rounded (by omega)) (rounded (by omega))

theorem satMin_near : |satMin r g b - ratio (min r (min g b)) (r + g + b)| ≤ 1 / 10 ^ 9 := by
  rw [← min3_ratio]
  exact min3_sub_min3_le (satRange_ratio (by omega) le).abs_sub_le (satRange_ratio (by omega) le).abs_sub_le
    (satRange_ratio (by omega) le).abs_sub_le

include grey

/-- The smallest ratio of a colour that is not grey stays below 1/3 by a part that rounding cannot reach. -/
theorem ratio_min_bound : 3 * ratio (min r (min g b)) (r + g + b) ≤ 1 - 1 / 765 := by
  have pos : (0 : ℚ) < (r + g + b : ℕ) := mod_cast (by omega : 0 < r + g + b)
  have le' : ((r + g + b : ℕ) : ℚ) ≤ 765 := mod_cast le
  have lt : 3 * min r (min g b) + 1 ≤ r + g + b := by omega
  have lt' : 3 * ((min r (min g b) : ℕ) : ℚ) + 1 ≤ (r + g + b : ℕ) := mod_cast lt
  rw [ratio, mul_div_assoc', div_le_iff₀ pos]
  linarith

theorem satRange_triple : SatRange (3 * satMin r g b) := by
  have near := abs_le.1 (satMin_near le)
  have bound := ratio_min_bound le grey
  obtain zero | low := satMin_zero_or_ge le
  · exact .inl (by rw [zero, mul_zero])
  · exact .inr ⟨by linarith, by linarith⟩

theorem satTriple_near : |satTriple r g b - 3 * ratio (min r (min g b)) (r + g + b)| ≤ 4 / 10 ^ 9 := by
  have near := abs_le.1 (satMin_near le)
  have step := abs_le.1 (satRange_triple le grey).abs_sub_le
  rw [satTriple, abs_le]
  exact ⟨by linarith, by linarith⟩

theorem satRange_unit : SatRange (1 - satTriple r g b) := by
  have near := abs_le.1 (satTriple_near le grey)
  have bound := ratio_min_bound le grey
  have nonneg := ratio_nonneg (min r (min g b)) (r + g + b)
  exact .inr ⟨by linarith, by linarith⟩

theorem satUnit_near : |satUnit r g b - (1 - 3 * ratio (min r (min g b)) (r + g + b))| ≤ 5 / 10 ^ 9 := by
  have near := abs_le.1 (satTriple_near le grey)
  have step := abs_le.1 (satRange_unit le grey).abs_sub_le
  rw [satUnit, abs_le]
  exact ⟨by linarith, by linarith⟩

theorem satRange_scaled : SatRange (satUnit r g b * 255) := by
  have near := abs_le.1 (satUnit_near le grey)
  have bound := ratio_min_bound le grey
  have nonneg := ratio_nonneg (min r (min g b)) (r + g + b)
  exact .inr ⟨by linarith, by linarith⟩

theorem satScaled_near : |satScaled r g b - satExact r g b| < 1 / 2 := by
  have near := abs_le.1 (satUnit_near le grey)
  have step := abs_le.1 (satRange_scaled le grey).abs_sub_le
  rw [satExact_eq (by omega), satScaled, abs_lt]
  exact ⟨by linarith, by linarith⟩

theorem satBinary64_cast : (satBinary64 r g b : ℤ) = ⌊satScaled r g b + 1 / 2⌋ := by
  have near := abs_lt.1 (satScaled_near le grey)
  have nonneg : 0 ≤ satExact r g b := by unfold satExact; positivity
  rw [satBinary64_eq, Int.toNat_of_nonneg (Int.floor_nonneg.2 (by linarith))]

end Steps

/-! ### The saturation is nearest (R267) -/

/-- A neighbour of a tie is a half away from it. -/
theorem abs_tie_sub_le {K : Type} [Field K] [LinearOrder K] [IsStrictOrderedRing K] {n k : ℕ} (h : n = k ∨ n = k + 1) :
    |(k : K) + 1 / 2 - n| ≤ 1 / 2 := by
  obtain rfl | rfl := h
  · rw [add_sub_cancel_left, abs_of_pos one_half_pos]
  · rw [Nat.cast_succ, add_sub_add_left_eq_sub, abs_sub_comm, sub_half, abs_of_pos one_half_pos]

theorem tieNeighbour_eq_or (side : TieSide) (below : ℕ) :
    tieNeighbour side below = below ∨ tieNeighbour side below = below + 1 := by
  cases side with
  | floor => exact .inl rfl
  | ceil => exact .inr rfl

section Saturation

variable {r g b : ℕ}

theorem satTie_iff : satTie r g b = true ↔
    510 * satSpan r g b % (r + g + b) = 0 ∧ 255 * satSpan r g b % (r + g + b) ≠ 0 := by
  simp [satTie]

theorem saturation_of_not_tie (mode : TieMode) (tie : satTie r g b = false) :
    saturation mode r g b = satNearest r g b := by
  simp only [saturation, tie]

theorem saturation_draw (tie : satTie r g b = true) : saturation .draw r g b =
    tieNeighbour (tieChoice .saturation r g b) (255 * satSpan r g b / (r + g + b)) := by
  simp only [saturation, tie]

theorem saturation_binary64 (tie : satTie r g b = true) : saturation .binary64 r g b = satBinary64 r g b := by
  simp only [saturation, tie]

/-- At a tie twice the remainder of 255·(sum − 3m) is sum. -/
theorem satExact_of_tie (tie : satTie r g b = true) :
    satExact r g b = (255 * satSpan r g b / (r + g + b) : ℕ) + 1 / 2 := by
  obtain ⟨whole, part⟩ := satTie_iff.1 tie
  have pos : 0 < r + g + b := by
    by_contra h
    simp [satSpan, (by omega : r + g + b = 0)] at part
  obtain ⟨c, hc⟩ := Nat.dvd_of_mod_eq_zero whole
  rw [show 510 * satSpan r g b = 2 * (255 * satSpan r g b) by ring] at hc
  have split := Nat.div_add_mod (255 * satSpan r g b) (r + g + b)
  have rem := Nat.mod_lt (255 * satSpan r g b) pos
  generalize 255 * satSpan r g b / (r + g + b) = q at *
  generalize 255 * satSpan r g b % (r + g + b) = d at *
  have half : 2 * d = r + g + b := by
    refine Nat.eq_of_dvd_of_lt_two_mul (by omega) ?_ (by omega)
    rw [← split, mul_add, mul_left_comm] at hc
    exact (Nat.dvd_add_right (dvd_mul_right ..)).1 (Dvd.intro c hc.symm)
  have hn : ((r + g + b : ℕ) : ℚ) ≠ 0 := mod_cast pos.ne'
  rw [satExact, div_eq_iff hn]
  have split' : ((r + g + b : ℕ) : ℚ) * q + d = 255 * satSpan r g b := mod_cast split
  have half' : 2 * (d : ℚ) = (r + g + b : ℕ) := mod_cast half
  linarith

theorem saturation_of_tie (mode : TieMode) (le : r + g + b ≤ 765) (grey : ¬ (r = g ∧ g = b))
    (tie : satTie r g b = true) :
    saturation mode r g b = 255 * satSpan r g b / (r + g + b) ∨
      saturation mode r g b = 255 * satSpan r g b / (r + g + b) + 1 := by
  cases mode with
  | draw => exact saturation_draw tie ▸ tieNeighbour_eq_or _ _
  | binary64 =>
    have near := abs_lt.1 (satScaled_near le grey)
    rw [saturation_binary64 tie, satBinary64_eq]
    rw [satExact_of_tie tie] at near
    generalize 255 * satSpan r g b / (r + g + b) = q at *
    have low : (q : ℤ) ≤ ⌊satScaled r g b + 1 / 2⌋ := Int.le_floor.2 (by push_cast; linarith)
    have high : ⌊satScaled r g b + 1 / 2⌋ < (q : ℤ) + 2 := Int.floor_lt.2 (by push_cast; linarith)
    omega

theorem satNearest_near (pos : 0 < r + g + b) : |satExact r g b - satNearest r g b| ≤ 1 / 2 := by
  have hn : (0 : ℚ) < (r + g + b : ℕ) := mod_cast pos
  have split := Nat.div_add_mod (510 * satSpan r g b + (r + g + b)) (2 * (r + g + b))
  have rem := Nat.mod_lt (510 * satSpan r g b + (r + g + b)) (by omega : 2 * (r + g + b) > 0)
  rw [satExact, satNearest]
  generalize (510 * satSpan r g b + (r + g + b)) / (2 * (r + g + b)) = q at *
  generalize (510 * satSpan r g b + (r + g + b)) % (2 * (r + g + b)) = d at *
  have split' : 2 * ((r + g + b : ℕ) : ℚ) * q + d = 510 * satSpan r g b + (r + g + b : ℕ) := mod_cast split
  have rem' : (d : ℚ) < 2 * (r + g + b : ℕ) := mod_cast rem
  have nonneg : (0 : ℚ) ≤ d := d.cast_nonneg
  rw [div_sub' hn.ne', abs_div, abs_of_pos hn, div_le_iff₀ hn, abs_le]
  exact ⟨by linarith, by linarith⟩

theorem saturation_near (mode : TieMode) (le : r + g + b ≤ 765) (grey : ¬ (r = g ∧ g = b)) :
    |satExact r g b - saturation mode r g b| ≤ 1 / 2 := by
  cases tie : satTie r g b with
  | false => exact saturation_of_not_tie mode tie ▸ satNearest_near (by omega)
  | true => exact satExact_of_tie tie ▸ abs_tie_sub_le (saturation_of_tie mode le grey tie)

theorem saturation_lt (mode : TieMode) (le : r + g + b ≤ 765) (grey : ¬ (r = g ∧ g = b)) :
    saturation mode r g b < 256 := by
  have near := abs_le.1 (saturation_near mode le grey)
  have top : satExact r g b ≤ 255 := by
    have nonneg := ratio_nonneg (min r (min g b)) (r + g + b)
    rw [satExact_eq (by omega)]
    linarith
  have : (saturation mode r g b : ℚ) < 256 := by linarith
  exact_mod_cast this

end Saturation

end Sys2Proof.Machine
end

section
/-! SUPPORT. The hue of the colour converter (spec/43_color.md R264 to R266, R271): the half turns counted over 255 powers give
⌊255·θ0/π⌋, so the byte is nearest the exact angle. -/

namespace Sys2Proof.Machine

open Sys2Proof.Safety

/-! ### Half turns -/

/-- z = ρ·(cos φ + i·sin φ), read with the imaginary unit √−3 of `Zeta`. -/
structure HasArg (z : Zeta) (ρ φ : ℝ) : Prop where
  pos : 0 < ρ
  re : (z.re : ℝ) = ρ * Real.cos φ
  im : √3 * z.im = ρ * Real.sin φ

theorem HasArg.zetaMul {w z : Zeta} {ρ σ φ θ : ℝ} (hw : HasArg w ρ φ) (hz : HasArg z σ θ) :
    HasArg (zetaMul w z) (ρ * σ) (φ + θ) where
  pos := mul_pos hw.pos hz.pos
  re := by
    have three : √3 * √3 = (3 : ℝ) := Real.mul_self_sqrt (by norm_num)
    calc ((w.re * z.re - 3 * (w.im * z.im) : ℤ) : ℝ) = w.re * z.re - (√3 * w.im) * (√3 * z.im) := by
          push_cast; linear_combination (w.im * z.im : ℝ) * three
      _ = ρ * σ * Real.cos (φ + θ) := by rw [hw.re, hz.re, hw.im, hz.im, Real.cos_add]; ring
  im := by
    calc √3 * ((w.re * z.im + w.im * z.re : ℤ) : ℝ) = w.re * (√3 * z.im) + (√3 * w.im) * z.re := by push_cast; ring
      _ = ρ * σ * Real.sin (φ + θ) := by rw [hw.re, hz.re, hw.im, hz.im, Real.sin_add]; ring

theorem zetaLower_iff (z : Zeta) : zetaLower z = true ↔ z.im < 0 ∨ z.im = 0 ∧ z.re < 0 := by simp [zetaLower]

/-- An argument in the upper half turn shows in the signs of the parts. -/
theorem HasArg.upper {z : Zeta} {ρ φ : ℝ} (h : HasArg z ρ φ) (low : 0 ≤ φ) (high : φ < Real.pi) :
    0 < z.im ∨ z.im = 0 ∧ 0 < z.re := by
  have re := h.re
  have im := h.im
  obtain rfl | pos := low.eq_or_lt
  · rw [Real.cos_zero, mul_one] at re
    rw [Real.sin_zero, mul_zero] at im
    exact .inr ⟨by simpa using im, Int.cast_pos.1 (re ▸ h.pos)⟩
  · have : 0 < √3 * (z.im : ℝ) := im ▸ mul_pos h.pos (Real.sin_pos_of_pos_of_lt_pi pos high)
    exact .inl (Int.cast_pos.1 (pos_of_mul_pos_right this (Real.sqrt_nonneg 3)))

/-- The argument lies in the lower half turn exactly when the number of completed half turns is odd. -/
theorem HasArg.zetaLower_iff_odd {z : Zeta} {ρ φ : ℝ} (h : HasArg z ρ φ) :
    zetaLower z = true ↔ Odd ⌊φ / Real.pi⌋ := by
  have pi := Real.pi_pos
  have low : 0 ≤ φ - ⌊φ / Real.pi⌋ * Real.pi := sub_nonneg.2 ((le_div_iff₀ pi).1 (Int.floor_le _))
  have high : φ - ⌊φ / Real.pi⌋ * Real.pi < Real.pi := by
    have := (div_lt_iff₀ pi).1 (Int.lt_floor_add_one (φ / Real.pi))
    linarith
  have cos := Real.cos_sub_int_mul_pi φ ⌊φ / Real.pi⌋
  have sin := Real.sin_sub_int_mul_pi φ ⌊φ / Real.pi⌋
  rw [zetaLower_iff]
  obtain even | odd := Int.even_or_odd ⌊φ / Real.pi⌋
  · rw [even.neg_one_zpow, one_mul] at cos sin
    have up := HasArg.upper ⟨h.pos, cos ▸ h.re, sin ▸ h.im⟩ low high
    rw [← Int.not_even_iff_odd]
    simp only [even, not_true, iff_false]
    omega
  · rw [odd.neg_one_zpow, neg_one_mul] at cos sin
    have up : 0 < -z.im ∨ -z.im = 0 ∧ 0 < -z.re := HasArg.upper (z := ⟨-z.re, -z.im⟩) (ρ := ρ)
      ⟨h.pos, by rw [cos, mul_neg, ← h.re, Int.cast_neg], by rw [sin, mul_neg, ← h.im, Int.cast_neg, mul_neg]⟩ low high
    simp only [odd, iff_true]
    omega

/-- A step of at most a half turn completes one or none. -/
theorem floor_add_half_turn {φ θ : ℝ} (low : 0 ≤ θ) (high : θ ≤ Real.pi) :
    ⌊(φ + θ) / Real.pi⌋ = ⌊φ / Real.pi⌋ ∨ ⌊(φ + θ) / Real.pi⌋ = ⌊φ / Real.pi⌋ + 1 := by
  have pi := Real.pi_pos
  have lower : ⌊φ / Real.pi⌋ ≤ ⌊(φ + θ) / Real.pi⌋ := by gcongr; linarith
  have upper : ⌊(φ + θ) / Real.pi⌋ ≤ ⌊φ / Real.pi + 1⌋ := by
    rw [div_add_one pi.ne']; gcongr
  rw [Int.floor_add_one] at upper
  omega

/-- `halfTurns` counts the multiples of π that n steps of θ pass. -/
theorem halfTurns_eq_floor {z : Zeta} {σ θ : ℝ} (hz : HasArg z σ θ) (low : 0 ≤ θ) (high : θ ≤ Real.pi) (n : ℕ) :
    ∀ {w : Zeta} {ρ φ : ℝ}, HasArg w ρ φ →
      (halfTurns z n w : ℤ) = ⌊(φ + n * θ) / Real.pi⌋ - ⌊φ / Real.pi⌋ := by
  induction n with
  | zero => intro w ρ φ _; simp [halfTurns]
  | succ n ih =>
    intro w ρ φ hw
    have hwz := hw.zetaMul hz
    have step : ((if zetaLower (zetaMul w z) != zetaLower w then 1 else 0 : ℕ) : ℤ) =
        ⌊(φ + θ) / Real.pi⌋ - ⌊φ / Real.pi⌋ := by
      have parity : zetaLower (zetaMul w z) = zetaLower w ↔
          (Odd ⌊(φ + θ) / Real.pi⌋ ↔ Odd ⌊φ / Real.pi⌋) := by
        rw [← hw.zetaLower_iff_odd, ← hwz.zetaLower_iff_odd, Bool.eq_iff_iff]
      obtain e | e := floor_add_half_turn (φ := φ) low high
      · rw [e] at parity ⊢
        simp [parity]
      · have moved : zetaLower (zetaMul w z) ≠ zetaLower w := by
          rw [ne_eq, parity, e, Int.odd_iff, Int.odd_iff]
          omega
        rw [e, if_pos (bne_iff_ne.2 moved)]
        push_cast
        ring
    rw [halfTurns, Nat.cast_add, step, ih hwz, Nat.cast_succ, show φ + θ + n * θ = φ + (n + 1) * θ by ring]
    ring

/-! ### The angle of a colour -/

/-- `θ0` (R264), over the common denominator. -/
noncomputable def hueAngle (r g b : ℕ) : ℝ := Real.arccos (hueA r g b / (2 * √(hueD r g b)))

/-- `255·θ0/π`: the half turns that the 255-th power makes. -/
noncomputable def hueTurns (r g b : ℕ) : ℝ := 255 * hueAngle r g b / Real.pi

/-- `H*` (R265, R266). -/
noncomputable def hueExact (r g b : ℕ) : ℝ :=
  (if g < b then 2 * Real.pi - hueAngle r g b else hueAngle r g b) * 255 / (2 * Real.pi)

theorem hueExact_eq (r g b : ℕ) :
    hueExact r g b = if g < b then 255 - hueTurns r g b / 2 else hueTurns r g b / 2 := by
  have pi := Real.pi_pos
  unfold hueExact hueTurns
  split <;> field_simp

theorem hueTurns_nonneg (r g b : ℕ) : 0 ≤ hueTurns r g b :=
  div_nonneg (mul_nonneg (by norm_num) (Real.arccos_nonneg _)) Real.pi_pos.le

theorem hueTurns_le (r g b : ℕ) : hueTurns r g b ≤ 255 := by
  rw [hueTurns, div_le_iff₀ Real.pi_pos]
  exact mul_le_mul_of_nonneg_left (Real.arccos_le_pi _) (by norm_num)

theorem hueExact_le (r g b : ℕ) : hueExact r g b ≤ 255 := by
  have nonneg := hueTurns_nonneg r g b
  have le := hueTurns_le r g b
  rw [hueExact_eq]
  split <;> linarith

/-- The angle of the ratios is the angle over the common denominator. -/
theorem hueAngle_eq_ratios (r g b : ℕ) {n : ℝ} (pos : 0 < n) :
    Real.arccos (1 / 2 * ((r / n - g / n) + (r / n - b / n)) / √((r / n - g / n) ^ 2 + (r / n - b / n) * (g / n - b / n))) =
      hueAngle r g b := by
  have radicand : (r / n - g / n) ^ 2 + (r / n - b / n) * (g / n - b / n) = (hueD r g b : ℝ) / n ^ 2 := by
    unfold hueD; push_cast; field_simp
  have numerator : 1 / 2 * ((r / n - g / n) + (r / n - b / n)) = (hueA r g b : ℝ) / 2 / n := by
    unfold hueA; push_cast; field_simp; ring
  rw [radicand, numerator, Real.sqrt_div' _ (sq_nonneg n), Real.sqrt_sq pos.le, div_div_div_cancel_right₀ pos.ne',
    div_div, hueAngle]

theorem four_mul_hueD (r g b : ℕ) : 4 * hueD r g b = hueA r g b ^ 2 + 3 * ((g : ℤ) - b) ^ 2 := by
  unfold hueA hueD; ring

section Angle

variable {r g b : ℕ}

theorem hueD_pos (grey : ¬ (r = g ∧ g = b)) : 0 < hueD r g b := by
  have sum := four_mul_hueD r g b
  by_contra neg
  have zero : ((g : ℤ) - b) = 0 := by nlinarith [sq_nonneg (hueA r g b), sq_nonneg ((g : ℤ) - b)]
  have zero' : hueA r g b = 0 := by nlinarith [sq_nonneg (hueA r g b), sq_nonneg ((g : ℤ) - b)]
  unfold hueA at zero'
  omega

/-- `hueZeta` has the argument θ0 (R264). -/
theorem hueZeta_hasArg (grey : ¬ (r = g ∧ g = b)) : HasArg (hueZeta r g b) (2 * √(hueD r g b)) (hueAngle r g b) := by
  have pos : (0 : ℝ) < hueD r g b := mod_cast hueD_pos grey
  have ρpos : 0 < 2 * √(hueD r g b) := by positivity
  have square : (2 * √(hueD r g b)) ^ 2 = (hueA r g b : ℝ) ^ 2 + (√3 * |(g : ℝ) - b|) ^ 2 := by
    rw [mul_pow, mul_pow, Real.sq_sqrt pos.le, Real.sq_sqrt (by norm_num), sq_abs]
    norm_num
    exact_mod_cast four_mul_hueD r g b
  rw [hueAngle]
  generalize 2 * √(hueD r g b) = ρ at *
  have bound : |(hueA r g b : ℝ) / ρ| ≤ 1 := by
    rw [abs_div, abs_of_pos ρpos, div_le_one ρpos]
    exact abs_le_of_sq_le_sq (square ▸ le_add_of_nonneg_right (sq_nonneg _)) ρpos.le
  have sine : 1 - (hueA r g b / ρ) ^ 2 = (√3 * |(g : ℝ) - b| / ρ) ^ 2 := by
    field_simp
    linarith
  refine ⟨ρpos, ?_, ?_⟩
  · rw [Real.cos_arccos (abs_le.1 bound).1 (abs_le.1 bound).2, mul_div_cancel₀ _ ρpos.ne']
    rfl
  · rw [Real.sin_arccos, sine, Real.sqrt_sq (by positivity), mul_div_cancel₀ _ ρpos.ne', hueZeta]
    simp

theorem hueHalfTurns_eq (grey : ¬ (r = g ∧ g = b)) : (hueHalfTurns r g b : ℤ) = ⌊hueTurns r g b⌋ := by
  have one : HasArg ⟨1, 0⟩ 1 0 := ⟨one_pos, by simp, by simp⟩
  rw [hueHalfTurns, halfTurns_eq_floor (hueZeta_hasArg grey) (Real.arccos_nonneg _) (Real.arccos_le_pi _) 255 one]
  norm_num [hueTurns]

theorem hueHalfTurns_le (grey : ¬ (r = g ∧ g = b)) : hueHalfTurns r g b ≤ 255 := by
  have : ⌊hueTurns r g b⌋ ≤ 255 := (Int.floor_mono (hueTurns_le r g b)).trans_eq (Int.floor_ofNat 255)
  rw [← hueHalfTurns_eq grey] at this
  omega

theorem hueNearest_near (grey : ¬ (r = g ∧ g = b)) : |hueExact r g b - hueNearest r g b| ≤ 1 / 2 := by
  have count := Int.floor_eq_iff.1 (hueHalfTurns_eq grey).symm
  have le := hueHalfTurns_le grey
  rw [hueExact_eq, hueNearest]
  generalize hueTurns r g b = x at *
  generalize hueHalfTurns r g b = n at *
  obtain ⟨low, high⟩ := count
  rw [Int.cast_natCast] at low high
  have half : (n : ℝ) ≤ 2 * ((n + 1) / 2 : ℕ) ∧ 2 * ((n + 1) / 2 : ℕ) ≤ (n : ℝ) + 1 := by
    constructor
    · exact_mod_cast (by omega : n ≤ 2 * ((n + 1) / 2))
    · exact_mod_cast (by omega : 2 * ((n + 1) / 2) ≤ n + 1)
  by_cases flip : g < b
  · rw [if_pos flip, if_neg flip.not_ge, Nat.cast_sub (by omega), abs_le]
    push_cast at half ⊢
    constructor <;> linarith
  · rw [if_neg flip, if_pos (not_lt.1 flip), abs_le]
    constructor <;> linarith

/-! ### Hue ties (R271) -/

theorem hueTie_at42 (pos : 0 < hueA r g b) (square : hueA r g b ^ 2 = hueD r g b) (le : b ≤ g) :
    hueTie r g b = some .at42 := by
  rw [hueTie, if_pos ⟨pos, (sq _).symm.trans square⟩, if_pos le]

theorem hueTie_at212 (pos : 0 < hueA r g b) (square : hueA r g b ^ 2 = hueD r g b) (lt : g < b) :
    hueTie r g b = some .at212 := by
  rw [hueTie, if_pos ⟨pos, (sq _).symm.trans square⟩, if_neg lt.not_ge]

theorem hueTie_at127 (neg : hueA r g b < 0) (square : hueA r g b ^ 2 = 4 * hueD r g b) :
    hueTie r g b = some .at127 := by
  rw [hueTie, if_neg fun h => h.1.not_gt neg, if_pos ⟨neg, (sq _).symm.trans square⟩]

theorem hueAngle_of_pos (pos : 0 < hueA r g b) (square : hueA r g b ^ 2 = hueD r g b) :
    hueAngle r g b = Real.pi / 3 := by
  have pos' : (0 : ℝ) < hueA r g b := mod_cast pos
  rw [hueAngle, ← square, Int.cast_pow, Real.sqrt_sq pos'.le, div_mul_cancel_right₀ pos'.ne', ← one_div,
    ← Real.cos_pi_div_three]
  exact Real.arccos_cos (by positivity) (by linarith [Real.pi_pos])

theorem hueAngle_of_neg (neg : hueA r g b < 0) (square : hueA r g b ^ 2 = 4 * hueD r g b) :
    hueAngle r g b = Real.pi := by
  have neg' : (hueA r g b : ℝ) < 0 := mod_cast neg
  have root : 2 * √(hueD r g b) = -hueA r g b := by
    have : (hueD r g b : ℝ) = (-hueA r g b / 2) ^ 2 := by
      have : (hueA r g b : ℝ) ^ 2 = 4 * hueD r g b := mod_cast square
      linarith
    rw [this, Real.sqrt_sq (by linarith)]
    ring
  rw [hueAngle, root, div_neg, div_self neg'.ne, Real.arccos_neg_one]

theorem hueTurns_of_pos (pos : 0 < hueA r g b) (square : hueA r g b ^ 2 = hueD r g b) : hueTurns r g b = 85 := by
  have pi := Real.pi_pos
  rw [hueTurns, hueAngle_of_pos pos square]
  field_simp
  norm_num

theorem hueTurns_of_neg (neg : hueA r g b < 0) (square : hueA r g b ^ 2 = 4 * hueD r g b) : hueTurns r g b = 255 := by
  rw [hueTurns, hueAngle_of_neg neg square, mul_div_cancel_right₀ _ Real.pi_ne_zero]

theorem not_lt_of_hueA_sq (square : hueA r g b ^ 2 = 4 * hueD r g b) : ¬ g < b := by
  have sum := four_mul_hueD r g b
  have zero : ((g : ℤ) - b) ^ 2 = 0 := by linarith
  have zero := (pow_eq_zero_iff two_ne_zero).1 zero
  omega

theorem hueExact_of_tie {t : HueTie} (tie : hueTie r g b = some t) : hueExact r g b = hueTieFloor t + 1 / 2 := by
  unfold hueTie at tie
  rw [hueExact_eq]
  split at tie
  case isTrue h =>
    rw [hueTurns_of_pos h.1 ((sq _).trans h.2)]
    split at tie
    case isTrue le =>
      obtain rfl := Option.some.inj tie
      rw [if_neg le.not_gt]
      norm_num [hueTieFloor]
    case isFalse lt =>
      obtain rfl := Option.some.inj tie
      rw [if_pos (not_le.1 lt)]
      norm_num [hueTieFloor]
  case isFalse =>
    split at tie
    case isTrue h =>
      obtain rfl := Option.some.inj tie
      have square := (sq _).trans h.2
      rw [hueTurns_of_neg h.1 square, if_neg (not_lt_of_hueA_sq square)]
      norm_num [hueTieFloor]
    case isFalse => cases tie

/-! ### The hue is nearest (R266, R271) -/

theorem hue_of_not_tie (mode : TieMode) (tie : hueTie r g b = none) : hue mode r g b = hueNearest r g b := by
  simp only [hue, tie]

theorem hue_draw {t : HueTie} (tie : hueTie r g b = some t) :
    hue .draw r g b = tieNeighbour (tieChoice .hue r g b) (hueTieFloor t) := by
  simp only [hue, tie]

theorem hue_binary64 {t : HueTie} (tie : hueTie r g b = some t) : hue .binary64 r g b = hueTieBinary64 t := by
  simp only [hue, tie]

theorem hueTieBinary64_eq_or (t : HueTie) : hueTieBinary64 t = hueTieFloor t ∨ hueTieBinary64 t = hueTieFloor t + 1 := by
  cases t with
  | at42 => exact .inr rfl
  | at127 => exact .inr rfl
  | at212 => exact .inl rfl

theorem hue_of_tie (mode : TieMode) {t : HueTie} (tie : hueTie r g b = some t) :
    hue mode r g b = hueTieFloor t ∨ hue mode r g b = hueTieFloor t + 1 := by
  cases mode with
  | draw => exact hue_draw tie ▸ tieNeighbour_eq_or _ _
  | binary64 => exact hue_binary64 tie ▸ hueTieBinary64_eq_or t

theorem hue_near (mode : TieMode) (grey : ¬ (r = g ∧ g = b)) : |hueExact r g b - hue mode r g b| ≤ 1 / 2 := by
  cases tie : hueTie r g b with
  | none => exact hue_of_not_tie mode tie ▸ hueNearest_near grey
  | some t => exact hueExact_of_tie tie ▸ abs_tie_sub_le (hue_of_tie mode tie)

theorem hue_lt (mode : TieMode) (grey : ¬ (r = g ∧ g = b)) : hue mode r g b < 256 := by
  have near := abs_le.1 (hue_near mode grey)
  have top := hueExact_le r g b
  have : (hue mode r g b : ℝ) < 256 := by linarith
  exact_mod_cast this

end Angle

end Sys2Proof.Machine
end

section
/-! SUPPORT. RGB_TO_HSI (spec/43_color.md R260 to R273): what it answers, and that hue and saturation depend on the ratios
alone. -/

namespace Sys2Proof.Machine

open Sys2Proof.Safety

/-! ### RGB_TO_HSI of bytes (R260 to R263) -/

section Bytes

variable {r g b : Byte}

theorem toNat_ne_of_not_grey (grey : ¬ (r = g ∧ g = b)) : ¬ (r.toNat = g.toNat ∧ g.toNat = b.toNat) := by
  rwa [BitVec.toNat_inj, BitVec.toNat_inj]

theorem toNat_sum_le (r g b : Byte) : r.toNat + g.toNat + b.toNat ≤ 765 := by omega

/-- `exec` of RGB_TO_HSI: the triple is the response's data and nothing else changes (R260). -/
theorem exec_rgbToHsi (r g b : Byte) (s : State) : exec (.rgbToHsi r g b) s =
    .next { s with responses := s.responses ++ [0x00 :: rgbToHsi s.profile.tieMode r.toNat g.toNat b.toNat] } := rfl

theorem rgbToHsi_of_grey (mode : TieMode) (x : ℕ) : rgbToHsi mode x x x = [0x00, 0x00, BitVec.ofNat 8 x] := by
  unfold rgbToHsi
  split
  · obtain rfl : x = 0 := by omega
    rfl
  · rw [if_pos ⟨rfl, rfl⟩, intensity, show (x + x + x + 1) / 3 = x by omega]

theorem rgbToHsi_of_not_grey (mode : TieMode) {r g b : ℕ} (grey : ¬ (r = g ∧ g = b)) : rgbToHsi mode r g b =
    [BitVec.ofNat 8 (hue mode r g b), BitVec.ofNat 8 (saturation mode r g b), BitVec.ofNat 8 (intensity r g b)] := by
  rw [rgbToHsi, if_neg (by omega), if_neg grey]

theorem exec_rgbToHsi_of_not_grey (s : State) (grey : ¬ (r = g ∧ g = b)) : ∃ h sat i : Byte,
    exec (.rgbToHsi r g b) s = .next { s with responses := s.responses ++ [[0x00, h, sat, i]] } ∧
    h.toNat = hue s.profile.tieMode r.toNat g.toNat b.toNat ∧
    sat.toNat = saturation s.profile.tieMode r.toNat g.toNat b.toNat ∧
    i.toNat = intensity r.toNat g.toNat b.toNat := by
  have grey' := toNat_ne_of_not_grey grey
  have le := toNat_sum_le r g b
  refine ⟨_, _, _, by rw [exec_rgbToHsi, rgbToHsi_of_not_grey _ grey'], ?_, ?_, ?_⟩
  · exact Nat.mod_eq_of_lt (hue_lt _ grey')
  · exact Nat.mod_eq_of_lt (saturation_lt _ le grey')
  · exact Nat.mod_eq_of_lt (by unfold intensity; omega)

end Bytes

/-! ### Scaling (R273) -/

theorem zetaLower_scale {c : ℤ} (hc : 0 < c) (z : Zeta) : zetaLower ⟨c * z.re, c * z.im⟩ = zetaLower z := by
  rw [Bool.eq_iff_iff, zetaLower_iff, zetaLower_iff]
  simp [mul_neg_iff, hc, hc.ne', hc.not_gt]

theorem zetaMul_scale (c d : ℤ) (w z : Zeta) : zetaMul ⟨d * w.re, d * w.im⟩ ⟨c * z.re, c * z.im⟩ =
    ⟨d * c * (zetaMul w z).re, d * c * (zetaMul w z).im⟩ := by
  simp only [zetaMul, Zeta.mk.injEq]
  constructor <;> ring

theorem halfTurns_scale {c : ℤ} (hc : 0 < c) (z : Zeta) (n : ℕ) : ∀ {d : ℤ} (w : Zeta), 0 < d →
    halfTurns ⟨c * z.re, c * z.im⟩ n ⟨d * w.re, d * w.im⟩ = halfTurns z n w := by
  induction n with
  | zero => intros; rfl
  | succ n ih =>
    intro d w hd
    rw [halfTurns, halfTurns, zetaMul_scale, zetaLower_scale (mul_pos hd hc), zetaLower_scale hd, ih _ (mul_pos hd hc)]

section Scale

variable {k : ℕ} (pos : 0 < k) (r g b : ℕ)

theorem hueA_scale (k : ℕ) : hueA (k * r) (k * g) (k * b) = k * hueA r g b := by
  unfold hueA; push_cast; ring

theorem hueD_scale (k : ℕ) : hueD (k * r) (k * g) (k * b) = k ^ 2 * hueD r g b := by
  unfold hueD; push_cast; ring

theorem hueZeta_scale (k : ℕ) : hueZeta (k * r) (k * g) (k * b) = ⟨k * (hueZeta r g b).re, k * (hueZeta r g b).im⟩ := by
  rw [hueZeta, hueA_scale, hueZeta]
  push_cast
  rw [← mul_sub, abs_mul, Nat.abs_cast]

theorem satSpan_scale (k : ℕ) : satSpan (k * r) (k * g) (k * b) = k * satSpan r g b := by
  rw [satSpan, Nat.mul_min_mul_left, Nat.mul_min_mul_left, mul_left_comm, ← mul_add, ← mul_add, ← Nat.mul_sub, satSpan]

include pos

theorem hueHalfTurns_scale : hueHalfTurns (k * r) (k * g) (k * b) = hueHalfTurns r g b := by
  have := halfTurns_scale (Int.natCast_pos.2 pos) (hueZeta r g b) 255 ⟨1, 0⟩ one_pos
  rwa [mul_one, mul_zero, ← hueZeta_scale] at this

theorem hueTie_scale : hueTie (k * r) (k * g) (k * b) = hueTie r g b := by
  have pos' : (0 : ℤ) < k := mod_cast pos
  have square (x y : ℤ) : k * x * (k * x) = k ^ 2 * y ↔ x * x = y := by
    rw [mul_mul_mul_comm, ← sq, mul_right_inj' (by positivity)]
  simp only [hueTie, hueA_scale, hueD_scale, mul_left_comm (4 : ℤ), square, mul_pos_iff_of_pos_left pos', mul_neg_iff,
    pos'.not_gt, pos', Nat.mul_le_mul_left_iff pos, false_and, or_false, true_and]

theorem ratio_scale (x n : ℕ) : ratio (k * x) (k * n) = ratio x n := by
  rw [ratio, ratio, Nat.cast_mul, Nat.cast_mul, mul_div_mul_left _ _ (mod_cast pos.ne')]

theorem tieChoice_scale (c : TieComponent) : tieChoice c (k * r) (k * g) (k * b) = tieChoice c r g b := by
  simp only [tieChoice, ← mul_add, ratio_scale pos]

theorem hue_scale (mode : TieMode) : hue mode (k * r) (k * g) (k * b) = hue mode r g b := by
  simp only [hue, hueNearest, hueTie_scale pos, hueHalfTurns_scale pos, tieChoice_scale pos, Nat.mul_le_mul_left_iff pos]

theorem satTie_scale : satTie (k * r) (k * g) (k * b) = satTie r g b := by
  simp only [satTie, satSpan_scale, ← mul_add, mul_left_comm _ k, Nat.mul_mod_mul_left, Nat.mul_eq_zero, pos.ne',
    false_or, ne_eq]

theorem satNearest_scale : satNearest (k * r) (k * g) (k * b) = satNearest r g b := by
  rw [satNearest, satSpan_scale, ← mul_add, ← mul_add, mul_left_comm, mul_left_comm 2, ← mul_add,
    Nat.mul_div_mul_left _ _ pos, satNearest]

theorem satBinary64_scale : satBinary64 (k * r) (k * g) (k * b) = satBinary64 r g b := by
  simp only [satBinary64, ← mul_add, ratio_scale pos]

theorem saturation_scale (mode : TieMode) : saturation mode (k * r) (k * g) (k * b) = saturation mode r g b := by
  simp only [saturation, satTie_scale pos, satNearest_scale pos, tieChoice_scale pos, satBinary64_scale pos,
    satSpan_scale, ← mul_add, mul_left_comm 255 k, Nat.mul_div_mul_left _ _ pos]

end Scale

/-! ### The obligations -/

/-- Settles O38: `exec` returns the triple, and that of a grey is `rgbToHsi_of_grey`. -/
theorem rgbBlackGrey : Obligations.RgbBlackGrey := by
  intro s x
  rw [exec_rgbToHsi, rgbToHsi_of_grey, BitVec.ofNat_toNat, BitVec.setWidth_eq]

/-- Settles O36: `hue_near`, with θ0 written out in the ratios. -/
theorem hueIsNearest : Obligations.HueIsNearest := by
  intro s r g b grey
  obtain ⟨h, sat, i, e, hh, -, -⟩ := exec_rgbToHsi_of_not_grey s grey
  refine ⟨h, sat, i, e, ?_⟩
  have grey' := toNat_ne_of_not_grey grey
  have pos : (0 : ℝ) < r.toNat + g.toNat + b.toNat := mod_cast (by omega : 0 < r.toNat + g.toNat + b.toNat)
  have near := hue_near s.profile.tieMode grey'
  rw [← hh, hueExact, ← hueAngle_eq_ratios _ _ _ pos] at near
  exact near

/-- Settles O37: `saturation_near`, with S* written out in the ratios. -/
theorem saturationAndIntensityNearest : Obligations.SaturationAndIntensityNearest := by
  intro s r g b grey
  obtain ⟨h, sat, i, e, -, hs, hi⟩ := exec_rgbToHsi_of_not_grey s grey
  refine ⟨h, sat, i, e, hi, ?_⟩
  have grey' := toNat_ne_of_not_grey grey
  have near := saturation_near s.profile.tieMode (toNat_sum_le r g b) grey'
  rw [satExact_eq (by omega), ← min3_ratio, ← hs] at near
  simpa only [min3, ratio, Nat.cast_add] using near

/-- Settles O40: both colours are scaled to the same multiple, and scaling keeps hue and saturation. -/
theorem scaleInvariance : Obligations.ScaleInvariance := by
  intro s r g b r2 g2 b2 k l hk hl er eg eb
  by_cases grey : r = g ∧ g = b
  · obtain ⟨rfl, rfl⟩ := grey
    obtain rfl := BitVec.eq_of_toNat_eq (Nat.eq_of_mul_eq_mul_left hl (er.symm.trans eg))
    obtain rfl := BitVec.eq_of_toNat_eq (Nat.eq_of_mul_eq_mul_left hl (er.symm.trans eb))
    exact ⟨_, _, _, _, rgbBlackGrey s r, rgbBlackGrey s r2⟩
  · have grey2 : ¬ (r2 = g2 ∧ g2 = b2) := by
      rintro ⟨rfl, rfl⟩
      exact grey ⟨BitVec.eq_of_toNat_eq (Nat.eq_of_mul_eq_mul_left hk (er.trans eg.symm)),
        BitVec.eq_of_toNat_eq (Nat.eq_of_mul_eq_mul_left hk (eg.trans eb.symm))⟩
    obtain ⟨h, sat, i, e, hh, hs, -⟩ := exec_rgbToHsi_of_not_grey s grey
    obtain ⟨h2, sat2, i2, e2, hh2, hs2, -⟩ := exec_rgbToHsi_of_not_grey s grey2
    rw [← hue_scale hk, er, eg, eb, hue_scale hl, ← hh2] at hh
    rw [← saturation_scale hk, er, eg, eb, saturation_scale hl, ← hs2] at hs
    obtain rfl := BitVec.eq_of_toNat_eq hh
    obtain rfl := BitVec.eq_of_toNat_eq hs
    exact ⟨_, _, _, _, e, e2⟩

/-- Settles O39: each tie set is the model's, and every rounding of the saturation's evaluation is nearest. -/
theorem tiesResolvedByMode : Obligations.TiesResolvedByMode := by
  constructor
  · intro s r g b grey
    obtain ⟨h, sat, i, e, hh, hs, -⟩ := exec_rgbToHsi_of_not_grey s grey
    refine ⟨h, sat, i, e, ?_⟩
    have le := toNat_sum_le r g b
    have grey' := toNat_ne_of_not_grey grey
    intro sum m A D side pick
    have hD : D = hueD r.toNat g.toNat b.toNat := by unfold D hueD; ring
    have resolve (t : HueTie) (tie : hueTie r.toNat g.toNat b.toNat = some t) : h.toNat =
        match s.profile.tieMode with
        | .draw => pick .hue (hueTieFloor t)
        | .binary64 => hueTieBinary64 t := by
      rw [hh]
      cases s.profile.tieMode with
      | draw => exact hue_draw tie
      | binary64 => exact hue_binary64 tie
    rw [hD]
    refine ⟨fun pos square le => resolve .at42 (hueTie_at42 pos square le),
      fun pos square lt => resolve .at212 (hueTie_at212 pos square lt),
      fun neg square => resolve .at127 (hueTie_at127 neg square), fun whole part => ?_⟩
    have tie : satTie r.toNat g.toNat b.toNat = true := satTie_iff.2 ⟨whole, part⟩
    refine ⟨fun draw => ?_, fun binary => ?_⟩
    · rw [hs, draw]
      exact saturation_draw tie
    · rw [binary, saturation_binary64 tie] at hs
      have ratioNear {x : ℕ} (hx : x ≤ sum) : NearestBinary64 (ratio x sum) (binary64 (ratio x sum)) :=
        (satRange_ratio hx le).nearest
      exact ⟨_, _, _, satTriple _ _ _, satUnit _ _ _, satScaled _ _ _, ratioNear (by omega), ratioNear (by omega),
        ratioNear (by omega), (satRange_triple le grey').nearest, (satRange_unit le grey').nearest,
        (satRange_scaled le grey').nearest, hs ▸ satBinary64_cast le grey'⟩
  · intro s binary
    rw [exec_rgbToHsi, exec_rgbToHsi, binary]
    have low : rgbToHsi .binary64 (8 : Byte).toNat (5 : Byte).toNat (5 : Byte).toNat = [0, 42, 6] := by decide +kernel
    have high : rgbToHsi .binary64 (1 : Byte).toNat (1 : Byte).toNat (4 : Byte).toNat = [170, 128, 2] := by decide +kernel
    exact ⟨by rw [low], by rw [high]⟩

end Sys2Proof.Machine
end

section
/-! SUPPORT. The session and context register operations (spec/44_context.md R290 to R301): a write answers OK, and a read answers
the register's bytes, or a fault where the register is unwritten. -/

namespace Sys2Proof.Machine

/-! ### The writes -/

/-- Settles O41: each write is one register update and an OK without data; the operand of WR_POLL_LIMIT is read by
`toNat_fromLe32`. -/
theorem contextWrites : Obligations.ContextWrites :=
  fun _ => ⟨fun _ _ _ _ _ _ _ _ _ _ => decode_of_operands .wrAddr rfl, fun _ => rfl,
    fun _ _ => ⟨decode_of_operands .wrSeq rfl, rfl⟩,
    fun _ _ => ⟨decode_of_operands .wrColor rfl, rfl⟩,
    fun _ _ => ⟨decode_of_operands .wrCtrl rfl, rfl⟩,
    fun _ _ _ _ _ => ⟨_, toNat_fromLe32 .., decode_of_operands .wrPollLimit rfl⟩, fun _ => rfl⟩

/-! ### The reads of registers that are never unwritten -/

/-- The bytes RD_POLL_LIMIT answers have the register's value, least significant first (R299). -/
theorem exists_toLe32_eq (l : BitVec 32) : ∃ l0 l1 l2 l3 : Byte,
    l.toNat = l0.toNat + 256 * l1.toNat + 65536 * l2.toNat + 16777216 * l3.toNat ∧ toLe32 l = [l0, l1, l2, l3] :=
  ⟨_, _, _, _, (congrArg BitVec.toNat (fromLe32_bytes l)).symm.trans (toNat_fromLe32 ..), rfl⟩

theorem exec_rdPollLimit (s : State) : exec .rdPollLimit s = .next (s.respond .ok (toLe32 s.pollLimit)) := rfl

theorem exec_rdBustate (s : State) :
    exec .rdBustate s = .next (s.respond .ok [(phaseCode s.buPhase).setWidth 8]) := rfl

/-- Settles O42: `exists_toLe32_eq` gives the bytes of POLL_LIMIT, and each phase is answered by its number. -/
theorem contextReads : Obligations.ContextReads := by
  refine ⟨fun _ => ⟨decode_of_operands .rdCtrl rfl, decode_of_operands .rdPollLimit rfl, decode_of_operands .rdFault rfl,
    decode_of_operands .rdBustate rfl⟩, fun s => ⟨rfl, ?_, rfl, ?_⟩⟩
  · obtain ⟨l0, l1, l2, l3, value, bytes⟩ := exists_toLe32_eq s.pollLimit
    refine ⟨l0, l1, l2, l3, value, ?_⟩
    rw [exec_rdPollLimit, bytes]
    rfl
  · exact (exec_rdBustate s).trans (congrArg (fun n => Host.Outcome.next (s.respond .ok [n])) (by cases s.buPhase <;> rfl))

/-! ### The reads of session registers -/

section Session

variable {written : Bool} (b : FaultBit) (data : List Byte) (s : State)

theorem answer_readWritten_of_written (h : written = true) :
    answer (readWritten written b data s) = s.respond .ok data := by
  subst h
  rfl

theorem answer_readWritten_of_unwritten (h : written = false) :
    answer (readWritten written b data s) = (s.setFaultBit b).respond .fault [] := by
  subst h
  rfl

end Session

/-- Settles O43: each read is `readWritten` of its register, whose written-flag tells the two answers apart. -/
theorem sessionReads : Obligations.SessionReads :=
  ⟨fun _ => ⟨decode_of_operands .rdAddr rfl, decode_of_operands .rdSeq rfl, decode_of_operands .rdColor rfl⟩,
    fun s => ⟨fun h => congrArg Host.Outcome.next (answer_readWritten_of_written _ _ s h),
      fun h => congrArg Host.Outcome.next (answer_readWritten_of_unwritten _ _ s h),
      fun h => congrArg Host.Outcome.next (answer_readWritten_of_written _ _ s h),
      fun h => congrArg Host.Outcome.next (answer_readWritten_of_unwritten _ _ s h),
      fun h => congrArg Host.Outcome.next (answer_readWritten_of_written _ _ s h),
      fun h => congrArg Host.Outcome.next (answer_readWritten_of_unwritten _ _ s h)⟩⟩

end Sys2Proof.Machine
end

section
/-! SUPPORT. How a command is answered (spec/60_exceptions.md R320, R336): a command is answered by its first step, but for an
INIT, which is answered by the step that ends it; with a poll bound there is such a step (70_reset_and_hazards.md R354). -/

namespace Sys2Proof.Machine

open Sys2Proof.Safety

/-! ### One response -/

/-- t is s with one response more, which begins with a result code (R320). -/
def AnswersOnce (s t : State) : Prop := ∃ code data, t.responses = s.responses ++ [resultByte code :: data]

theorem HostEffect.answersOnce {i : Instr} {s t : State} (h : HostEffect i s t) : AnswersOnce s t := by
  obtain ⟨b, rfl⟩ | ⟨code, data, evs, o, r, hr, -, rfl⟩ := h
  · exact ⟨.fault, [], rfl⟩
  · have silent : r.responses = s.responses := by rw [hr.rest]
    exact ⟨code, data, by simp [silent]⟩

/-- A step of a running INIT goes on without a response, or ends it with one. -/
theorem EndsOrGoesOn.cases {s t : State} (h : EndsOrGoesOn s t) :
    (t.busy = true ∧ t.responses = s.responses) ∨ ((t.buPhase = .ready ∨ t.buPhase = .failed) ∧ AnswersOnce s t) := by
  obtain ⟨hp, code, data, -, hr⟩ | goesOn | ⟨hp, hr⟩ := h
  · exact .inr ⟨.inr hp, code, data, hr⟩
  · exact .inl goesOn
  · exact .inr ⟨.inl hp, .ok, [], hr⟩

/-! ### A running INIT until it ends -/

/-- The block is in the middle of an INIT, and HOST has issued nothing after it. -/
def Initializing (s : State) : Prop := s.resetIn = false ∧ s.busy = true ∧ s.hostIn = []

theorem step_of_initializing {s t : State} (h : Initializing s) (e : step s = .next t) : t = bringUpStep s := by
  obtain ⟨hr, hb, -⟩ := h
  obtain ⟨-, ht⟩ | ⟨hb', -⟩ | ⟨hb', -⟩ := step_cases_of_not_reset hr e
  · exact ht
  · exact absurd (hb'.symm.trans hb) nofun
  · exact absurd (hb'.symm.trans hb) nofun

/-- No input of an INIT moves while it runs, so it goes on or the block waits for HOST. -/
theorem initializing_or_awaitsHost {s t : State} (hr : s.resetIn = false) (hh : s.hostIn = []) (f : SameButBringUp s t) :
    (t.busy = true → Initializing t) ∧ (t.busy = false → AwaitsHost t) := by
  have hr' : t.resetIn = false := by rw [f]; exact hr
  have hh' : t.hostIn = [] := by rw [f]; exact hh
  exact ⟨fun hb => ⟨hr', hb, hh'⟩, fun hb => ⟨hr', hb, hh'⟩⟩

/-- An INIT that comes to its end gives one response and writes the bring-up registers only (41_bringup.md R170). -/
theorem initializing_run {k : Nat} {s t : State} (hs : Initializing s) (h : Host.Core.run Sys2Proof.core k s = .next t)
    (ht : AwaitsHost t) : SameButBringUp s t ∧ AnswersOnce s t := by
  induction k generalizing s with
  | zero =>
    obtain rfl : s = t := Host.Outcome.next.inj h
    exact absurd (hs.2.1.symm.trans ht.2.1) nofun
  | succ k ih =>
    obtain ⟨u, e, h⟩ := run_succ_inv h
    obtain rfl := step_of_initializing hs e
    obtain ⟨hr, hb, hh⟩ := hs
    have frame := bringUpStep_frame hb
    obtain ⟨goesOn, ended⟩ := initializing_or_awaitsHost hr hh frame
    obtain ⟨busy, silent⟩ | ⟨idle, answers⟩ := (bringUpStep_endsOrGoesOn hb).cases
    · obtain ⟨frame', code, data, resp⟩ := ih (goesOn busy) h
      exact ⟨sameButBringUp_trans frame frame', code, data, silent ▸ resp⟩
    · obtain rfl : bringUpStep s = t := run_awaitsHost_unique (j := 0) rfl h (ended (busy_eq_false (.inr idle))) ht
      exact ⟨frame, answers⟩

/-! ### The steps a bounded INIT has left -/

/-- The most steps an INIT has left in a state with the poll bound N = POLL_LIMIT: 1 RESET strobe, N status polls, N identity
reads, 33 configuration writes and 4 settle strobes, less those made (R354). -/
def stepsLeft (s : State) : Nat :=
  match s.buPhase with
  | .reset => 1 + s.pollLimit.toNat + s.pollLimit.toNat + 33 + 4
  | .readyPoll => (s.pollLimit.toNat - s.pollCnt) + s.pollLimit.toNat + 33 + 4
  | .idPoll => (s.pollLimit.toNat - s.pollCnt) + 33 + 4
  | .config => (33 - s.cfgIdx) + 4
  | .settle => 4 - s.settleIdx
  | _ => 0

/-- In range and with a poll bound, the exchange that is due is one of the steps left. -/
theorem Due.stepsLeft_pos {s : State} {tx : List Byte} (due : Due s tx) (range : BringUpInRange s)
    (limit : s.pollLimit ≠ 0) : 0 < stepsLeft s := by
  obtain ⟨-, cfg, settles, polls⟩ := range
  cases due <;> grind [stepsLeft]

/-- Each exchange is one of the steps left: a poll that goes on counts, and each phase is followed by a shorter rest. -/
theorem InitTurn.stepsLeft_lt {s t : State} {tx : List Byte} {o : XferOutcome} (turn : InitTurn s tx o t)
    (range : BringUpInRange s) (limit : s.pollLimit ≠ 0) : stepsLeft t < stepsLeft s := by
  have pos := turn.due.stepsLeft_pos range limit
  obtain ⟨-, cfg, settles, polls⟩ := range
  cases turn with
  | fails | lastSettle => exact pos
  | reset _ hp | pollNotReady _ hp | pollReady _ hp | readNotReady _ hp | identified _ hp | entry _ hp | lastEntry _ hp
  | settle _ hp =>
    grind [stepsLeft, State.exchanged, State.afterEvents, startPoll, startConfig, startSettle, State.setPhase,
      State.setPollCnt, State.setCfgIdx, State.setSettleIdx]

/-- In range, a running INIT has a wire form due. -/
theorem bringUpForm_of_inRange {s : State} (table : s.profile.configTable.length = 33) (range : BringUpInRange s)
    (hb : s.busy = true) : ∃ i, bringUpForm s = some i := by
  refine Option.ne_none_iff_exists'.1 fun hf => ?_
  obtain ⟨hp, -⟩ | ⟨hp, past, -⟩ | ⟨hp, past, -⟩ := bringUpStep_noForm hb hf
  · exact range.notXportInit hp
  · exact (table ▸ past).not_gt (range.cfgInRange hp)
  · exact past.not_gt (range.settleInRange hp)

/-- An INIT with a poll bound ends (R354). -/
theorem exists_run_of_bounded {s : State} (runs : Runs s) (range : BringUpInRange s) (limit : s.pollLimit ≠ 0)
    (hb : s.busy = true) : ∃ k t, k ≤ stepsLeft s ∧ Host.Core.run Sys2Proof.core k s = .next t ∧ SameButBringUp s t ∧
      (t.buPhase = .ready ∨ t.buPhase = .failed) ∧ AnswersOnce s t := by
  induction hn : stepsLeft s using Nat.strong_induction_on generalizing s with
  | _ n ih =>
    subst hn
    have table := (profileWf_iff_legalProfile.1 runs.1).configTable_length
    obtain ⟨i, hf⟩ := bringUpForm_of_inRange table range hb
    have fewer := (bringUpStep_turn hf).stepsLeft_lt range limit
    have frame := bringUpStep_frame hb
    have e := step_busy runs.1 runs.2 hb
    obtain ⟨busy, silent⟩ | ⟨idle, answers⟩ := (bringUpStep_endsOrGoesOn hb).cases
    · have limit' : (bringUpStep s).pollLimit ≠ 0 := by rw [frame]; exact limit
      obtain ⟨k, t, hk, run, frame', idle, code, data, resp⟩ := ih _ fewer (runs.of_frame frame)
        (bringUpStep_inRange hb table range.notXportInit) limit' busy rfl
      exact ⟨k + 1, t, hk.trans_lt fewer, (run_succ e).trans run, sameButBringUp_trans frame frame', idle, code, data,
        silent ▸ resp⟩
    · exact ⟨1, _, Nat.one_le_of_lt fewer, run_succ e, frame, idle, answers⟩

/-! ### A command and its answer -/

/-- What the first step makes of an issued command: the block has answered it, or it is in the middle of an INIT. -/
def Taken (c : List Byte) (s t : State) : Prop :=
  (AwaitsHost t ∧ AnswersOnce s t) ∨
  (c = [0x01] ∧ Initializing t ∧ BringUpInRange t ∧ SameButBringUp s t ∧ t.responses = s.responses)

theorem setHostIn_issue {s : State} (hs : AwaitsHost s) (c : List Byte) : (issue c s).setHostIn [] = s := by
  obtain ⟨-, -, hh⟩ := hs
  calc (issue c s).setHostIn [] = s.setHostIn s.hostIn := by rw [hh]; rfl
    _ = s := rfl

theorem exec_init_taken {s t : State} (hs : AwaitsHost s) (h : exec .init s = .next t) : Taken [0x01] s t := by
  obtain ⟨hr, hb, hh⟩ := hs
  have frame := execInit_frame h
  obtain ⟨goesOn, ended⟩ := initializing_or_awaitsHost hr hh frame
  have range := exec_inRange hb h
  obtain rfl := Host.Outcome.next.inj h
  obtain ⟨busy, silent⟩ | ⟨idle, answers⟩ := (phaseXportInit_endsOrGoesOn (s.setPhase .xportInit)).cases
  · exact .inr ⟨rfl, goesOn busy, range, frame, silent⟩
  · exact .inl ⟨ended (busy_eq_false (.inr idle)), answers⟩

theorem exec_host_awaitsHost {i : Instr} {s t : State} (hi : i ≠ .init) (hs : AwaitsHost s) (h : exec i s = .next t) :
    AwaitsHost t := by
  obtain ⟨hr, hb, hh⟩ := hs
  obtain ⟨-, -, -, -, bringUp, -, -, hostIn, resetIn⟩ := onlyWritersWrite i s t h
  exact ⟨resetIn.trans hr, (congrArg phaseBusy (bringUp hi).1).trans hb, hostIn.trans hh⟩

/-- The first step of an issued command runs it, or answers its code as illegal. -/
theorem step_issue {c : List Byte} {s : State} (wf : profileWf s.profile = true) (hs : AwaitsHost s) (hc : IsCommand c) :
    (∃ i, decode c = .instr i [] ∧ step (issue c s) = exec i s) ∨
    (∃ b, decode c = .unassignedCode b [] ∧ step (issue c s) = .next (illegalCommand s)) := by
  have back := setHostIn_issue hs c
  obtain ⟨hr, hb, -⟩ := hs
  obtain ⟨i, hd⟩ | ⟨b, hd⟩ := hc
  · exact .inl ⟨i, hd, back ▸ step_instr (s := issue c s) wf hr hb hd⟩
  · exact .inr ⟨b, hd, back ▸ step_unassigned (s := issue c s) wf hr hb hd⟩

theorem exists_step_issue {c : List Byte} {s : State} (wf : profileWf s.profile = true) (hs : AwaitsHost s)
    (hc : IsCommand c) : ∃ t, step (issue c s) = .next t ∧ Taken c s t := by
  obtain ⟨i, hd, e⟩ | ⟨b, -, e⟩ := step_issue wf hs hc
  · by_cases hi : i = .init
    · subst hi
      obtain rfl : c = [0x01] := (decode_eq_instr hd).2 s.profile
      exact ⟨_, e, exec_init_taken hs rfl⟩
    · obtain ⟨t, he, effect⟩ := exec_host_cases i s (decode_isWire hd) hi
      exact ⟨t, e.trans he, .inl ⟨exec_host_awaitsHost hi hs he, effect.answersOnce⟩⟩
  · exact ⟨_, e, .inl ⟨hs, .illegalCommand, [], rfl⟩⟩

/-- An answered command is taken by its first step, and the steps after it are those of the INIT it began. -/
theorem answered_taken {c : List Byte} {s t : State} (h : Answered c s t) :
    ∃ u, step (issue c s) = .next u ∧ ((u = t ∧ AnswersOnce s t) ∨
      (c = [0x01] ∧ Initializing u ∧ SameButBringUp s u ∧ SameButBringUp u t ∧ AnswersOnce s t)) := by
  obtain ⟨hc, hs, ht, k, hk⟩ := h
  cases k with
  | zero =>
    obtain rfl : issue c s = t := Host.Outcome.next.inj hk
    obtain rfl : c = [] := ht.2.2
    obtain ⟨i, hd⟩ | ⟨b, hd⟩ := hc <;> cases hd
  | succ k =>
    obtain ⟨u, e, run⟩ := run_succ_inv hk
    obtain ⟨u', e', taken⟩ := exists_step_issue (s := s) (step_cases e).1 hs hc
    obtain rfl : u = u' := Host.Outcome.next.inj (e.symm.trans e')
    obtain ⟨waits, answers⟩ | ⟨rfl, begun, -, frame, silent⟩ := taken
    · obtain rfl : u = t := run_awaitsHost_unique (j := 0) rfl run waits ht
      exact ⟨u, e, .inl ⟨rfl, answers⟩⟩
    · obtain ⟨frame', code, data, resp⟩ := initializing_run begun run ht
      exact ⟨u, e, .inr ⟨rfl, begun, frame, frame', code, data, silent ▸ resp⟩⟩

theorem answersOnce_of_answered {c : List Byte} {s t : State} (h : Answered c s t) : AnswersOnce s t := by
  obtain ⟨u, -, ⟨-, answers⟩ | ⟨-, -, -, -, answers⟩⟩ := answered_taken h <;> exact answers

theorem exists_answered {c : List Byte} {s : State} (wf : profileWf s.profile = true) (hs : AwaitsHost s)
    (hc : IsCommand c) (limit : c = [0x01] → s.pollLimit ≠ 0) : ∃ t, Answered c s t := by
  obtain ⟨u, e, ⟨waits, -⟩ | ⟨rfl, ⟨hr, hb, hh⟩, range, frame, -⟩⟩ := exists_step_issue wf hs hc
  · exact ⟨u, hc, hs, waits, 1, run_succ e⟩
  · have runs : Runs u := Runs.of_frame ⟨wf, hs.1⟩ frame
    have limit' : u.pollLimit ≠ 0 := by rw [frame]; exact limit rfl
    obtain ⟨k, t, -, run, frame', idle, -⟩ := exists_run_of_bounded runs range limit' hb
    exact ⟨t, hc, hs, (initializing_or_awaitsHost hr hh frame').2 (busy_eq_false (.inr idle)), k + 1,
      (run_succ e).trans run⟩

/-- A run of n commands gives n responses, each with a result code at its head (R336). -/
theorem hostRun_responses {cs : List (List Byte)} {s t : State} (h : HostRun cs s t) :
    ∃ rs, rs.length = cs.length ∧ t.responses = s.responses ++ rs ∧
      ∀ r ∈ rs, ∃ code data, r = code :: data ∧ code.toNat ≤ 0x0C := by
  induction cs generalizing s with
  | nil =>
    obtain ⟨-, rfl⟩ := h
    exact ⟨[], rfl, (List.append_nil _).symm, nofun⟩
  | cons c cs ih =>
    obtain ⟨u, first, rest⟩ := h
    obtain ⟨code, data, resp⟩ := answersOnce_of_answered first
    obtain ⟨rs, length, resps, codes⟩ := ih rest
    refine ⟨(resultByte code :: data) :: rs, congrArg (· + 1) length, by rw [resps, resp, List.append_assoc]; rfl, ?_⟩
    exact List.forall_mem_cons.2 ⟨⟨_, _, rfl, resultByte_le code⟩, codes⟩

/-- Settles O49: one operation by `exec_host_cases` and `exec_appends`, one command by `exists_answered`, and a run by
`hostRun_responses`. -/
theorem everyHostOperationAnswersOnce : Obligations.EveryHostOperationAnswersOnce := by
  refine ⟨fun i s hw hi => ?_, fun c s wf hs hc limit => exists_answered wf hs hc limit, fun cs s t h => hostRun_responses h⟩
  obtain ⟨t, e, effect⟩ := exec_host_cases i s hw hi
  obtain ⟨code, data, resp⟩ := effect.answersOnce
  obtain ⟨-, ⟨evs, trace, len, -⟩, -⟩ := exec_appends hw e
  exact ⟨t, _, data, evs, e, resp, resultByte_le code, trace, len⟩

end Sys2Proof.Machine
end

section
/-! SUPPORT. What the operations on the link do not touch (spec/40_register_access.md R131 to R139): they read the profile and
the oracle only, and move TRACE and the oracle only. So they act alike in every BU_PHASE (60_exceptions.md R329), and they
leave FAULT alone (R323). -/

namespace Sys2Proof.Machine

open Sys2Proof.Safety

/-! ### The operations on the link -/

/-- g changes nothing that an operation on the link reads, and it can be made before or after events. -/
structure OffLink (g : State → State) : Prop where
  profile : ∀ s, (g s).profile = s.profile
  oracle : ∀ s, (g s).oracle = s.oracle
  events : ∀ s evs o, g (s.afterEvents evs o) = (g s).afterEvents evs o

/-- f answers the same before and after the change g, and g can be made before or after f. -/
def Commutes {α : Type} (g : State → State) (f : State → α × State) : Prop := ∀ s, f (g s) = ((f s).1, g (f s).2)

section OffLink

variable {g : State → State} (off : OffLink g)
include off

theorem xfer_commutes (tx : List Byte) : Commutes g (xfer tx) := fun s => by
  simp only [xfer, off.oracle, State.logEvent_setOracle, off.events]

theorem alloc_commutes (n : Nat) : Commutes g (alloc n) := by
  intro s
  unfold alloc
  rw [off.profile, off.oracle]
  split
  · rfl
  · split
    · rw [State.setOracle_eq_afterEvents, State.setOracle_eq_afterEvents, off.events]
    · rfl

theorem poll_commutes : Commutes g poll := by
  intro s
  unfold poll
  rw [xfer_commutes off]
  rcases xfer framePoll s with ⟨_ | _, s'⟩ <;> rfl

theorem setReg_commutes (a v : Byte) : Commutes g (setReg a v) := by
  intro s
  unfold setReg
  split
  · rfl
  · rw [xfer_commutes off]
    rcases xfer (frameSingleWrite (addrField a) v) s with ⟨_ | _, s'⟩ <;> rfl

theorem getReg_commutes (a : Byte) : Commutes g (getReg a) := by
  intro s
  unfold getReg
  split
  · rfl
  · rw [xfer_commutes off]
    rcases xfer (frameSingleRead (addrField a)) s with ⟨_ | _, s'⟩ <;> rfl

theorem strobe_commutes (sel : Byte) : Commutes g (strobe sel) := by
  intro s
  unfold strobe
  rw [off.profile]
  cases selectorCode s.profile sel with
  | none => rfl
  | some code =>
    simp only [xfer_commutes off (frameStrobe code) s]
    rcases xfer (frameStrobe code) s with ⟨_ | _, s'⟩ <;> rfl

theorem fifoWrite_commutes (p : List Byte) : Commutes g (fifoWrite p) := by
  intro s
  unfold fifoWrite
  rw [alloc_commutes off]
  rcases alloc (p.length + 1) s with ⟨_ | _, s1⟩
  · rfl
  · simp only [off.profile, xfer_commutes off (frameBurstWrite s1.profile.fifoAddr p) s1]
    rcases xfer (frameBurstWrite s1.profile.fifoAddr p) s1 with ⟨_ | _, s2⟩
    · simp only [off.profile, xfer_commutes off (frameStrobe s2.profile.strobes.tx) s2]
      rcases xfer (frameStrobe s2.profile.strobes.tx) s2 with ⟨_ | _, s3⟩ <;> rfl
    · rfl

theorem fifoRead_commutes : Commutes g fifoRead := by
  intro s
  unfold fifoRead
  rw [poll_commutes off]
  rcases poll s with ⟨_ | sb, s1⟩
  · rfl
  · simp only [alloc_commutes off ((statusFifoCount sb).toNat + 1) s1]
    rcases alloc ((statusFifoCount sb).toNat + 1) s1 with ⟨_ | _, s2⟩
    · rfl
    · simp only [off.profile, xfer_commutes off (frameBurstRead s2.profile.fifoAddr (statusFifoCount sb).toNat) s2]
      rcases xfer (frameBurstRead s2.profile.fifoAddr (statusFifoCount sb).toNat) s2 with ⟨_ | _, s3⟩ <;> rfl

theorem fifoWriteReply_commutes (p : List Byte) : Commutes g fun s => fifoWriteReply (fifoWrite p s) := by
  intro s
  simp only [fifoWrite_commutes off p s, fifoWriteReply]

theorem fifoReadReply_commutes : Commutes g fun s => fifoReadReply (fifoRead s) := by
  intro s
  simp only [fifoRead_commutes off s]
  rcases fifoRead s with ⟨_ | _, s'⟩ <;> rfl

omit off in
theorem parseFrame_commutes (b d : List Byte) : Commutes g (parseFrame b d) := by
  obtain ⟨code, data, -, e⟩ := parseFrame_cases b d
  intro s
  simp only [e]

theorem recvPacket_commutes : Commutes g recvPacket := by
  intro s
  unfold recvPacket
  rw [fifoRead_commutes off]
  rcases fifoRead s with ⟨_ | ⟨c, p⟩, s'⟩
  · rfl
  · exact parseFrame_commutes p (c :: p) s'

end OffLink

/-! ### BU_PHASE -/

theorem offLink_setPhase (ph : BuPhase) : OffLink fun s => s.setPhase ph :=
  ⟨fun _ => rfl, fun _ => rfl, fun _ _ _ => rfl⟩

/-- An operation whose reply is f's completes alike in every BU_PHASE. -/
theorem Commutes.completes {f : State → Reply × State} {ph : BuPhase} (h : Commutes (fun s => s.setPhase ph) f)
    (s : State) : ∃ t, (Host.Outcome.next (answer (f s)) : Host.Outcome State Fault Refusal) = .next t ∧
      (Host.Outcome.next (answer (f (s.setPhase ph))) : Host.Outcome State Fault Refusal) = .next (t.setPhase ph) :=
  ⟨_, rfl, congrArg (fun r => Host.Outcome.next (answer r)) (h s)⟩

theorem build_commutes_setPhase (cmd cf : Byte) (c : Color) (ph : BuPhase) :
    Commutes (fun s => s.setPhase ph) (build cmd cf c) := by
  intro s
  have same : buildPacket cmd cf c (s.setPhase ph) = buildPacket cmd cf c s := rfl
  simp only [build, same]
  split
  · rfl
  · cases buildPacket cmd cf c s <;> rfl

theorem seqAdvance_setPhase (r : ResultCode) (s : State) (ph : BuPhase) :
    seqAdvance r (s.setPhase ph) = (seqAdvance r s).setPhase ph := by
  rw [seqAdvance_eq, seqAdvance_eq]
  rfl

theorem send_commutes_setPhase (cmd cf : Byte) (c : Color) (ph : BuPhase) :
    Commutes (fun s => s.setPhase ph) (send cmd cf c) := by
  intro s
  have same : buildPacket cmd cf c (s.setPhase ph) = buildPacket cmd cf c s := rfl
  simp only [send, same]
  split
  · rfl
  · cases buildPacket cmd cf c s with
    | error b => rfl
    | ok p =>
      simp only [fifoWrite_commutes (offLink_setPhase ph) p s, sendReply, seqAdvance_setPhase]

theorem readWritten_commutes_setPhase (w : Bool) (b : FaultBit) (data : List Byte) (ph : BuPhase) :
    Commutes (fun s => s.setPhase ph) (readWritten w b data) := fun s => by
  cases w <;> rfl

/-- A host operation other than INIT and RD_BUSTATE neither reads BU_PHASE nor writes it (R329). -/
theorem exec_setPhase {i : Instr} (s : State) (ph : BuPhase) (hw : i.isWire = false) (hi : i ≠ .init)
    (hb : i ≠ .rdBustate) : ∃ t, exec i s = .next t ∧ exec i (s.setPhase ph) = .next (t.setPhase ph) := by
  have off := offLink_setPhase ph
  cases i with
  | init => exact absurd rfl hi
  | rdBustate => exact absurd rfl hb
  | setReg a v => exact (setReg_commutes off a v).completes s
  | getReg a => exact (getReg_commutes off a).completes s
  | strobe sel => exact (strobe_commutes off sel).completes s
  | fifoWrite p => exact (fifoWriteReply_commutes off p).completes s
  | fifoRead => exact (fifoReadReply_commutes off).completes s
  | recvPacket => exact (recvPacket_commutes off).completes s
  | parse b => exact (parseFrame_commutes b []).completes s
  | build cmd cf c => exact (build_commutes_setPhase cmd cf c ph).completes s
  | send cmd cf c => exact (send_commutes_setPhase cmd cf c ph).completes s
  | turnOn => exact (send_commutes_setPhase 0x05 0x00 noColor ph).completes s
  | turnOff => exact (send_commutes_setPhase 0x07 0x00 noColor ph).completes s
  | setColor c => exact (send_commutes_setPhase 0x03 0x01 c ph).completes s
  | rdAddr => exact (readWritten_commutes_setPhase s.addrW .addrUnwritten s.addr.bytes ph).completes s
  | rdSeq => exact (readWritten_commutes_setPhase s.seqW .seqUnwritten [s.seq] ph).completes s
  | rdColor => exact (readWritten_commutes_setPhase s.colorW .colorUnwritten s.color.bytes ph).completes s
  | learn | rgbToHsi | wrAddr | wrSeq | wrColor | wrCtrl | rdCtrl | wrPollLimit | rdPollLimit | rdFault =>
    exact ⟨_, rfl, rfl⟩
  | _ => exact absurd hw (by simp [Instr.isWire])

/-- Settles O48: INIT writes BU_PHASE before anything reads it, and every other operation is `exec_setPhase`. -/
theorem noOperationWaitsForBringUp : Obligations.NoOperationWaitsForBringUp :=
  fun s ph => ⟨rfl, fun _ hw hi hb => exec_setPhase s ph hw hi hb⟩

end Sys2Proof.Machine
end

section
/-! SUPPORT. Runs that are not faulted (spec/60_exceptions.md R323, R335, R336): FAULT is sticky along every run, and a run in
which HOST keeps its set-up duties and reads no session register leaves it as it was. -/

namespace Sys2Proof.Machine

open Sys2Proof.Safety

/-! ### FAULT is sticky -/

theorem faulted_eq_false {s : State} : faulted s = false ↔ s.fault = 0x00 := by simp [faulted]

/-- A step neither asserts block reset nor, without it, clears a bit of FAULT (R323). -/
theorem unfaulted_of_step {s t : State} (hr : s.resetIn = false) (h : step s = .next t) :
    t.resetIn = false ∧ (faulted t = false → faulted s = false) := by
  constructor
  · obtain ⟨hb, rfl⟩ | ⟨-, i, rest, -, he⟩ | ⟨-, rest, rfl⟩ := step_cases_of_not_reset hr h
    · rw [bringUpStep_frame hb]
      exact hr
    · obtain ⟨-, -, -, -, -, -, -, -, resetIn⟩ := onlyWritersWrite i _ t he
      exact resetIn.trans hr
    · exact hr
  · rw [faulted_eq_false, faulted_eq_false]
    intro clear
    obtain hf | ⟨bit, -, hf⟩ := faultBitsSticky s t hr h
    · exact hf ▸ clear
    · rw [hf] at clear
      exact (BitVec.or_eq_zero_iff.1 clear).1

theorem unfaulted_of_run {k : Nat} {s t : State} (hr : s.resetIn = false)
    (h : Host.Core.run Sys2Proof.core k s = .next t) (ht : faulted t = false) : faulted s = false := by
  induction k generalizing s with
  | zero =>
    obtain rfl : s = t := Host.Outcome.next.inj h
    exact ht
  | succ k ih =>
    obtain ⟨u, e, h⟩ := run_succ_inv h
    obtain ⟨hr', clear⟩ := unfaulted_of_step hr e
    exact clear (ih hr' h)

theorem unfaulted_of_hostRun {cs : List (List Byte)} {s t : State} (h : HostRun cs s t) (ht : faulted t = false) :
    faulted s = false := by
  induction cs generalizing s with
  | nil =>
    obtain ⟨-, rfl⟩ := h
    exact ht
  | cons c cs ih =>
    obtain ⟨u, ⟨-, ⟨hr, -⟩, -, k, run⟩, rest⟩ := h
    exact unfaulted_of_run (s := issue c s) hr run (ih rest)

/-! ### Operations that raise no fault -/

/-- `FAULT <- v`, which no operation does (R28): it shows what does not touch FAULT. -/
def State.setFault (s : State) (v : Byte) : State := { s with fault := v }

theorem offLink_setFault (v : Byte) : OffLink fun s => s.setFault v :=
  ⟨fun _ => rfl, fun _ => rfl, fun _ _ _ => rfl⟩

/-- An operation whose reply is f's leaves FAULT as it is, where f acts alike whatever FAULT holds. -/
theorem fault_eq_of_commutes {f : State → Reply × State} (h : ∀ v, Commutes (fun s => s.setFault v) f) {s t : State}
    (e : (Host.Outcome.next (answer (f s)) : Host.Outcome State Fault Refusal) = .next t) : t.fault = s.fault := by
  obtain rfl := Host.Outcome.next.inj e
  exact congrArg (fun r => r.2.fault) (h s.fault s)

/-- HOST has written the registers that i needs, and i reads no session register (R335). -/
def NeedsNothingUnwritten (i : Instr) (s : State) : Prop :=
  i ≠ .rdAddr ∧ i ≠ .rdSeq ∧ i ≠ .rdColor ∧ ∀ cf, packetCf i = some cf → firstUnwritten s cf = none

theorem send_fault_eq {i : Instr} {cmd cf : Byte} {c : Color} {s t : State} (hi : sendOperands i = some (cmd, cf, c))
    (written : firstUnwritten s cf = none) (h : exec i s = .next t) : t.fault = s.fault := by
  by_cases legal : LegalOperands cmd cf
  · obtain ⟨r, evs, o, -, e⟩ := exec_send_cases hi legal written
    obtain rfl := Host.Outcome.next.inj (e.symm.trans h)
    rw [seqAdvance_eq]
    rfl
  · obtain ⟨illegal, -⟩ := sendRefusedBeforeExchange s i cmd cf c hi
    obtain rfl := Host.Outcome.next.inj ((illegal legal).symm.trans h)
    rfl

theorem build_fault_eq {cmd cf : Byte} {c : Color} {s t : State} (written : firstUnwritten s cf = none)
    (h : exec (.build cmd cf c) s = .next t) : t.fault = s.fault := by
  by_cases legal : LegalOperands cmd cf
  · obtain rfl := Host.Outcome.next.inj ((exec_build_of_written c legal written).symm.trans h)
    rfl
  · obtain rfl := Host.Outcome.next.inj ((exec_build_of_illegal c s legal).symm.trans h)
    rfl

/-- A host operation that needs nothing unwritten raises no fault (10_state.md R27, R28). -/
theorem exec_fault_eq {i : Instr} {s t : State} (hw : i.isWire = false) (needs : NeedsNothingUnwritten i s)
    (h : exec i s = .next t) : t.fault = s.fault := by
  obtain ⟨hAddr, hSeq, hColor, written⟩ := needs
  cases i with
  | rdAddr => exact absurd rfl hAddr
  | rdSeq => exact absurd rfl hSeq
  | rdColor => exact absurd rfl hColor
  | init => exact fault_of_sameButBringUp (execInit_frame h)
  | build => exact build_fault_eq (written _ rfl) h
  | send | turnOn | turnOff | setColor => exact send_fault_eq rfl (written _ rfl) h
  | setReg a v => exact fault_eq_of_commutes (fun _ => setReg_commutes (offLink_setFault _) a v) h
  | getReg a => exact fault_eq_of_commutes (fun _ => getReg_commutes (offLink_setFault _) a) h
  | strobe sel => exact fault_eq_of_commutes (fun _ => strobe_commutes (offLink_setFault _) sel) h
  | fifoWrite p => exact fault_eq_of_commutes (fun _ => fifoWriteReply_commutes (offLink_setFault _) p) h
  | fifoRead => exact fault_eq_of_commutes (fun _ => fifoReadReply_commutes (offLink_setFault _)) h
  | recvPacket => exact fault_eq_of_commutes (fun _ => recvPacket_commutes (offLink_setFault _)) h
  | parse b => exact fault_eq_of_commutes (fun _ => parseFrame_commutes b []) h
  | learn | rgbToHsi | wrAddr | wrSeq | wrColor | wrCtrl | rdCtrl | wrPollLimit | rdPollLimit | rdFault | rdBustate =>
    obtain rfl := Host.Outcome.next.inj h
    rfl
  | _ => exact absurd hw (by simp [Instr.isWire])

/-! ### Runs that keep HOST's set-up duties -/

/-- The set-up duty of R335 for a command that reads no session register. -/
theorem needsNothingUnwritten_of_setUpKept {c : List Byte} {i : Instr} {s : State} (hd : decode c = .instr i [])
    (kept : setUpKept c s = true) (reads : c ≠ [0x31] ∧ c ≠ [0x33] ∧ c ≠ [0x35]) : NeedsNothingUnwritten i s := by
  have bytes : c = encode s.profile i := ((decode_eq_instr hd).2 s.profile).trans (List.append_nil _)
  obtain ⟨rdAddr, rdSeq, rdColor⟩ := reads
  refine ⟨?_, ?_, ?_, fun cf hcf => ?_⟩
  · rintro rfl
    exact rdAddr bytes
  · rintro rfl
    exact rdSeq bytes
  · rintro rfl
    exact rdColor bytes
  · simp only [setUpKept, hd, hcf, Bool.and_eq_true, Option.isNone_iff_eq_none] at kept
    exact kept.2

theorem answered_fault_eq {c : List Byte} {s t : State} (h : Answered c s t) (kept : setUpKept c s = true)
    (reads : c ≠ [0x31] ∧ c ≠ [0x33] ∧ c ≠ [0x35]) : t.fault = s.fault := by
  obtain ⟨u, e, ⟨rfl, -⟩ | ⟨-, -, frame, frame', -⟩⟩ := answered_taken h
  · obtain ⟨hc, hs, -⟩ := h
    obtain ⟨i, hd, e'⟩ | ⟨b, -, e'⟩ := step_issue (s := s) (step_cases e).1 hs hc
    · exact exec_fault_eq (decode_isWire hd) (needsNothingUnwritten_of_setUpKept hd kept reads) (e'.symm.trans e)
    · obtain rfl := Host.Outcome.next.inj (e'.symm.trans e)
      rfl
  · exact (fault_of_sameButBringUp frame').trans (fault_of_sameButBringUp frame)

theorem dutifulRun_fault_eq {cs : List (List Byte)} {s t : State} (h : DutifulRun cs s t)
    (reads : ∀ c ∈ cs, c ≠ [0x31] ∧ c ≠ [0x33] ∧ c ≠ [0x35]) : t.fault = s.fault := by
  induction cs generalizing s with
  | nil =>
    obtain ⟨-, rfl⟩ := h
    rfl
  | cons c cs ih =>
    obtain ⟨kept, u, first, rest⟩ := h
    obtain ⟨readsFirst, readsRest⟩ := List.forall_mem_cons.1 reads
    exact (ih rest readsRest).trans (answered_fault_eq first kept readsFirst)

/-- Settles O46: FAULT is sticky along the steps of a run, and a dutiful run raises no fault. -/
theorem safeRunStartsUnfaulted : Obligations.SafeRunStartsUnfaulted :=
  ⟨fun _ _ _ => unfaulted_of_run, fun _ _ _ ⟨run, unfaulted⟩ => unfaulted_of_hostRun run unfaulted,
    fun _ _ _ => dutifulRun_fault_eq⟩

end Sys2Proof.Machine
end

section
/-! SUPPORT. Block reset, and how long an INIT runs (spec/70_reset_and_hazards.md R350, R351, R354): with POLL_LIMIT 0 it
polls a chip that never reports ready for any number of steps, and with a bound it ends. -/

namespace Sys2Proof.Machine

open Sys2Proof.Safety

/-! ### Block reset -/

/-- A step with block reset asserted. -/
theorem step_reset {s : State} (wf : profileWf s.profile = true) (hr : s.resetIn = true) :
    step s = .next (blockReset s) := by
  simp [step, legalStep, wf, hr]

/-- Settles O54: in any phase the step is `blockReset`, which starts from the state after reset. -/
theorem blockResetRestoresRegisters : Obligations.BlockResetRestoresRegisters :=
  fun _ wf hr => ⟨_, step_reset wf hr, rfl, rfl, rfl, rfl, rfl, rfl, rfl, rfl, rfl, rfl, rfl, rfl, rfl⟩

/-! ### A poll loop without a bound -/

/-- With POLL_LIMIT 0 either poll loop goes on through any number of not-ready answers, one a step, and counts them. -/
theorem run_unboundedPolls {s : State} {tx : List Byte} {tape : List XferOutcome} {α : Type} (answer : α → List Byte)
    {qs : List α} (runs : Runs s) (hp : s.buPhase = .readyPoll ∨ s.buPhase = .idPoll) (unbounded : s.pollLimit = 0)
    (due : ∀ u : State, u.buPhase = s.buPhase → u.profile = s.profile → Due u tx)
    (notReady : ∀ q ∈ qs, (answer q).length = tx.length ∧ statusNotReady (rxByte (answer q) 0) = true)
    (ht : s.oracle.xfer = qs.map (fun q => .ok (answer q)) ++ tape) :
    ∃ t, Host.Core.run Sys2Proof.core qs.length s = .next t ∧ t.buPhase = s.buPhase ∧
      t.pollCnt = s.pollCnt + qs.length ∧ t.responses = s.responses ∧
      t.trace = s.trace ++ qs.map (fun q => .xfer tx (.ok (answer q))) ∧ SameButBringUp s t := by
  induction qs generalizing s with
  | nil => exact ⟨s, rfl, rfl, rfl, rfl, (List.append_nil _).symm, rfl⟩
  | cons q qs ih =>
    obtain ⟨⟨length, notReadyQ⟩, notReady⟩ := List.forall_mem_cons.1 notReady
    have first := makes_exchange runs (due s rfl rfl) length ht
    rw [bringUpNext_pollsOn hp notReadyQ (.inl unbounded)] at first
    obtain ⟨t, run, phase, count, silent, trace, frame⟩ :=
      ih (runs.of_frame first.frame) hp unbounded due notReady first.tape
    have whole : Host.Core.run Sys2Proof.core (1 + qs.length) s = .next t := run_add first.run run
    rw [Nat.add_comm] at whole
    rw [first.trace, List.append_assoc] at trace
    exact ⟨t, whole, phase, count.trans (Nat.add_right_comm _ 1 _), silent, trace,
      sameButBringUp_trans first.frame frame⟩

/-- Settles O23: both loops by `run_unboundedPolls`, each with the bytes it sends. -/
theorem unboundedPollGoesOnForever : Obligations.UnboundedPollGoesOnForever := by
  refine fun s tape wf hr unbounded => ⟨fun sbs hp notReady ht => ?_, fun reads hp notReady ht => ?_⟩
  · have loop := run_unboundedPolls (tx := [0x00]) (fun sb => [sb]) ⟨wf, hr⟩ (.inl hp) unbounded
      (fun u hu _ => .readyPoll (hu.trans hp)) (fun sb hsb => ⟨rfl, (status_head sb []).trans (notReady sb hsb)⟩) ht
    rwa [hp] at loop
  · have due : ∀ u : State, u.buPhase = s.buPhase → u.profile = s.profile →
        Due u [0xC0 ||| s.profile.idRegAddr.setWidth 8, 0x00] := fun u hu hprofile => by
      rw [← hprofile]
      exact .idPoll (hu.trans hp)
    have answers : ∀ q ∈ reads, [q.1, q.2].length = 2 ∧ statusNotReady (rxByte [q.1, q.2] 0) = true :=
      fun q hq => ⟨rfl, (status_head q.1 [q.2]).trans (notReady q hq)⟩
    have loop := run_unboundedPolls (fun q : Byte × Byte => [q.1, q.2]) ⟨wf, hr⟩ (.inr hp) unbounded due answers ht
    rwa [hp] at loop

/-! ### An INIT with a bound -/

/-- Before the RESET strobe the steps left are 2N + 38. -/
theorem stepsLeft_reset {s : State} (hp : s.buPhase = .reset) : stepsLeft s = 2 * s.pollLimit.toNat + 38 := by
  simp only [stepsLeft, hp]
  omega

/-- Settles O24: INIT fails in its first step, or stands before the RESET strobe with `stepsLeft` to go. -/
theorem boundedInitEnds : Obligations.BoundedInitEnds := by
  intro s wf hr limit
  obtain ⟨o, -, e⟩ := execInit_cases s
  cases o with
  | ok =>
    obtain ⟨k, t, hk, run, -, idle, code, data, resp⟩ := exists_run_of_bounded
      (s := (s.afterEvents [.xinit .ok] s.oracle.nextXInit).setPhase .reset) ⟨wf, hr⟩ (.idle (.inr rfl)) limit rfl
    exact ⟨_, k, t, e, hk.trans_eq (stepsLeft_reset rfl), run, idle, _, data, resp⟩
  | openFail | configFail => exact ⟨_, 0, _, e, Nat.zero_le _, rfl, .inr rfl, _, _, rfl⟩

end Sys2Proof.Machine
end
